-- ==== Sys2Proof/Word.lean ====
section
/-! DEFINITION. The word types of CPU16 and the two operand widths (R2, R3 of 00_scope.md; R10 of 10_state.md). -/

namespace Sys2Proof

/-- Eight bits: the unit of addressing (R30). -/
abbrev Byte := BitVec 8

/-- Sixteen bits: a register, an address, a word immediate (R2). -/
abbrev Word := BitVec 16

/-- A 4-bit quick immediate or count field (R2, R48). -/
abbrev Nibble := BitVec 4

/-- A register number `r0` .. `r15`: every value of the 4-bit `RGTR` field (R10). -/
abbrev Reg := Fin 16

/-- The Type column of an opcode row that has an operand width (R6). -/
inductive Width where
  | byte
  | word
deriving DecidableEq, Repr

/-- `W` of the rules: 8 for Type byte, 16 for Type word (R3). -/
@[reducible] def Width.bits : Width → Nat
  | .byte => 8
  | .word => 16

/-- `W/8`: how many bytes an access of this Type moves (R36). -/
@[reducible] def Width.bytes : Width → Nat
  | .byte => 1
  | .word => 2

end Sys2Proof
end

