-- ==== Sys2Proof/Syntax.lean ====
section
/-! DEFINITION. The syntax of CPU16: one constructor for each of the 148 rows of spec/opcode_table.json (R45 to R50 of
30_encoding.md).

A constructor is the row's mnemonic and a suffix: `W` or `B` for Type word or byte, then `R` for the register form, `I`
for the immediate form, `A` for the absolute-address form, `Q` for the quick form, `U` or `S` for the unsigned or signed
quick immediate of `adq` and `sbq`, and `L` or `S` for the 16-bit or 8-bit offset of a branch. The operands are the
fields of the row's format (R46, R47): `p` and `q` are the registers in bits 7:4 and 3:0 of the operand byte, `n` a
4-bit, `b` an 8-bit and `imm` a 16-bit immediate, address or offset. -/

namespace Sys2Proof

/-- An instruction of CPU16. -/
inductive Instr where
  -- arithmetic
  | addWR (p q : Reg)  -- $07 add word RR, R73
  | addBR (p q : Reg)  -- $47 add byte RR, R73
  | addWI (p : Reg) (imm : Word)  -- $87 add word RW, R73
  | addBI (p : Reg) (b : Byte)  -- $C7 add byte RB, R73
  | adqWU (p : Reg) (n : Nibble)  -- $09 adq word RN, R74
  | adqBU (p : Reg) (n : Nibble)  -- $49 adq byte RN, R74
  | adqWS (p : Reg) (n : Nibble)  -- $89 adq word RN, R74
  | adqBS (p : Reg) (n : Nibble)  -- $C9 adq byte RN, R74
  | adsWR (p q : Reg)  -- $08 ads word RR, R75
  | adsBR (p q : Reg)  -- $48 ads byte RR, R75
  | adsWI (p : Reg) (imm : Word)  -- $88 ads word RW, R75
  | adsBI (p : Reg) (b : Byte)  -- $C8 ads byte RB, R75
  | subWR (p q : Reg)  -- $0A sub word RR, R76
  | subBR (p q : Reg)  -- $4A sub byte RR, R76
  | subWI (p : Reg) (imm : Word)  -- $8A sub word RW, R76
  | subBI (p : Reg) (b : Byte)  -- $CA sub byte RB, R76
  | sbqWU (p : Reg) (n : Nibble)  -- $0C sbq word RN, R77
  | sbqBU (p : Reg) (n : Nibble)  -- $4C sbq byte RN, R77
  | sbqWS (p : Reg) (n : Nibble)  -- $8C sbq word RN, R77
  | sbqBS (p : Reg) (n : Nibble)  -- $CC sbq byte RN, R77
  | sbsWR (p q : Reg)  -- $0B sbs word RR, R78
  | sbsBR (p q : Reg)  -- $4B sbs byte RR, R78
  | sbsWI (p : Reg) (imm : Word)  -- $8B sbs word RW, R78
  | sbsBI (p : Reg) (b : Byte)  -- $CB sbs byte RB, R78
  | mulWR (p q : Reg)  -- $0D mul word RR, R79
  | mulBR (p q : Reg)  -- $4D mul byte RR, R79
  | mulWI (p : Reg) (imm : Word)  -- $8D mul word RW, R79
  | mulBI (p : Reg) (b : Byte)  -- $CD mul byte RB, R79
  | mlsWR (p q : Reg)  -- $0E mls word RR, R80
  | mlsBR (p q : Reg)  -- $4E mls byte RR, R80
  | mlsWI (p : Reg) (imm : Word)  -- $8E mls word RW, R80
  | mlsBI (p : Reg) (b : Byte)  -- $CE mls byte RB, R80
  | divWR (p q : Reg)  -- $0F div word RR, R81
  | divBR (p q : Reg)  -- $4F div byte RR, R81
  | divWI (p : Reg) (imm : Word)  -- $8F div word RW, R81
  | divBI (p : Reg) (b : Byte)  -- $CF div byte RB, R81
  | dvsWR (p q : Reg)  -- $10 dvs word RR, R82
  | dvsBR (p q : Reg)  -- $50 dvs byte RR, R82
  | dvsWI (p : Reg) (imm : Word)  -- $90 dvs word RW, R82
  | dvsBI (p : Reg) (b : Byte)  -- $D0 dvs byte RB, R82
  | negW (p : Reg)  -- $94 neg word R, R83
  | negB (p : Reg)  -- $D4 neg byte R, R83
  -- logic, shifts, rotates, swap
  | andWR (p q : Reg)  -- $11 and word RR, R90
  | andBR (p q : Reg)  -- $51 and byte RR, R90
  | andWI (p : Reg) (imm : Word)  -- $91 and word RW, R90
  | andBI (p : Reg) (b : Byte)  -- $D1 and byte RB, R90
  | orWR (p q : Reg)  -- $12 or word RR, R91
  | orBR (p q : Reg)  -- $52 or byte RR, R91
  | orWI (p : Reg) (imm : Word)  -- $92 or word RW, R91
  | orBI (p : Reg) (b : Byte)  -- $D2 or byte RB, R91
  | xorWR (p q : Reg)  -- $13 xor word RR, R92
  | xorBR (p q : Reg)  -- $53 xor byte RR, R92
  | xorWI (p : Reg) (imm : Word)  -- $93 xor word RW, R92
  | xorBI (p : Reg) (b : Byte)  -- $D3 xor byte RB, R92
  | notW (p : Reg)  -- $14 not word R, R93
  | notB (p : Reg)  -- $54 not byte R, R93
  | shlW (p : Reg) (n : Nibble)  -- $15 shl word RN, R94
  | shlB (p : Reg) (n : Nibble)  -- $55 shl byte RN, R94
  | shrW (p : Reg) (n : Nibble)  -- $95 shr word RN, R95
  | shrB (p : Reg) (n : Nibble)  -- $D5 shr byte RN, R95
  | rolW (p : Reg) (n : Nibble)  -- $16 rol word RN, R96
  | rolB (p : Reg) (n : Nibble)  -- $56 rol byte RN, R96
  | rorW (p : Reg) (n : Nibble)  -- $96 ror word RN, R97
  | rorB (p : Reg) (n : Nibble)  -- $D6 ror byte RN, R97
  | swpW (p : Reg)  -- $85 swp word R, R98
  | swpB (p : Reg)  -- $C5 swp byte R, R98
  -- data movement
  | cpyW (p q : Reg)  -- $04 cpy word RR, R105
  | cpyB (p q : Reg)  -- $44 cpy byte RR, R105
  | clrW (p : Reg)  -- $84 clr word R, R106
  | clrB (p : Reg)  -- $C4 clr byte R, R106
  | stqW (p : Reg) (n : Nibble)  -- $06 stq word RN, R107
  | stqB (p : Reg) (n : Nibble)  -- $46 stq byte RN, R107
  | excW (p q : Reg)  -- $05 exc word RR, R108
  | excB (p q : Reg)  -- $45 exc byte RR, R108
  | lWR (p q : Reg)  -- $02 l word RR, R109
  | lWA (p : Reg) (imm : Word)  -- $42 l word RW, R109
  | lBR (p q : Reg)  -- $82 l byte RR, R109
  | lBA (p : Reg) (imm : Word)  -- $C2 l byte RW, R109
  | sWR (p q : Reg)  -- $03 s word RR, R110
  | sWA (imm : Word) (q : Reg)  -- $43 s word QW, R110
  | sBR (p q : Reg)  -- $83 s byte RR, R110
  | sBA (imm : Word) (q : Reg)  -- $C3 s byte QW, R110
  | pshWR (p : Reg)  -- $00 psh word R, R111
  | pshBR (p : Reg)  -- $40 psh byte R, R111
  | pshWI (imm : Word)  -- $80 psh word W, R111
  | pshBI (b : Byte)  -- $C0 psh byte B, R111
  | popW (p : Reg)  -- $01 pop word R, R112
  | popB (p : Reg)  -- $41 pop byte R, R112
  | tsr (p : Reg)  -- $24 tsr no width R, R113
  | trs (p : Reg)  -- $64 trs no width R, R114
  | tpr (p : Reg)  -- $A4 tpr no width R, R115
  | trp (p : Reg)  -- $E4 trp no width R, R116
  -- compare
  | cmpWR (p q : Reg)  -- $19 cmp word RR, R125
  | cmpWQ (p : Reg) (n : Nibble)  -- $1A cmp word RN, R125
  | cmpBR (p q : Reg)  -- $59 cmp byte RR, R125
  | cmpBQ (p : Reg) (n : Nibble)  -- $5A cmp byte RN, R125
  | cmpWI (p : Reg) (imm : Word)  -- $99 cmp word RW, R125
  | cmpBI (p : Reg) (b : Byte)  -- $D9 cmp byte RB, R125
  | dcpWI (p : Reg) (imm : Word)  -- $1B dcp word RW, R126
  | dcpBI (p : Reg) (b : Byte)  -- $5B dcp byte RB, R126
  | dcpWR (p q : Reg)  -- $9B dcp word RR, R126
  | dcpBR (p q : Reg)  -- $DB dcp byte RR, R126
  | zcpW (p : Reg)  -- $9A zcp word R, R127
  | zcpB (p : Reg)  -- $DA zcp byte R, R127
  -- branches
  | beqL (imm : Word)  -- $1C beq no width W, R134
  | beqS (b : Byte)  -- $5C beq no width B, R134
  | bfeL (imm : Word)  -- $A0 bfe no width W, R135
  | bfeS (b : Byte)  -- $E0 bfe no width B, R135
  | bftL (imm : Word)  -- $9E bft no width W, R136
  | bftS (b : Byte)  -- $DE bft no width B, R136
  | bgeL (imm : Word)  -- $1F bge no width W, R137
  | bgeS (b : Byte)  -- $5F bge no width B, R137
  | bgtL (imm : Word)  -- $1D bgt no width W, R138
  | bgtS (b : Byte)  -- $5D bgt no width B, R138
  | bleL (imm : Word)  -- $9F ble no width W, R139
  | bleS (b : Byte)  -- $DF ble no width B, R139
  | bltL (imm : Word)  -- $9D blt no width W, R140
  | bltS (b : Byte)  -- $DD blt no width B, R140
  | bmeL (imm : Word)  -- $20 bme no width W, R141
  | bmeS (b : Byte)  -- $60 bme no width B, R141
  | bmtL (imm : Word)  -- $1E bmt no width W, R142
  | bmtS (b : Byte)  -- $5E bmt no width B, R142
  | bneL (imm : Word)  -- $9C bne no width W, R143
  | bneS (b : Byte)  -- $DC bne no width B, R143
  | bnzL (imm : Word)  -- $A1 bnz no width W, R144
  | bnzS (b : Byte)  -- $E1 bnz no width B, R144
  | braR  -- $18 bra no width Z, R145
  | braL (imm : Word)  -- $58 bra no width W, R145
  | braS (b : Byte)  -- $98 bra no width B, R145
  | brcL (imm : Word)  -- $22 brc no width W, R146
  | brcS (b : Byte)  -- $62 brc no width B, R146
  | brnL (imm : Word)  -- $A3 brn no width W, R147
  | brnS (b : Byte)  -- $E3 brn no width B, R147
  | broL (imm : Word)  -- $A2 bro no width W, R148
  | broS (b : Byte)  -- $E2 bro no width B, R148
  | brpL (imm : Word)  -- $23 brp no width W, R149
  | brpS (b : Byte)  -- $63 brp no width B, R149
  | brzL (imm : Word)  -- $21 brz no width W, R150
  | brzS (b : Byte)  -- $61 brz no width B, R150
  -- jump, call, return
  | jmpR (p : Reg)  -- $17 jmp no width R, R160
  | jmpA (imm : Word)  -- $57 jmp no width W, R160
  | jsrR (p : Reg)  -- $97 jsr no width R, R161
  | jsrA (imm : Word)  -- $D7 jsr no width W, R161
  | ret  -- $D8 ret no width Z, R162
  -- system
  | ent  -- $65 ent no width Z, R167
  | lve  -- $A5 lve no width Z, R168
  | io (n : Nibble)  -- $E5 io no width N, R169
  | rti  -- $25 rti no width Z, R170
deriving DecidableEq, Repr

end Sys2Proof
end

