-- ==== Sys2Proof/Decode.lean ====
section
/-! DEFINITION. Decoding and encoding (30_encoding.md): the bytes of an instruction, lowest address first, to a term of
`Instr` or a rejection by name, and back. -/

namespace Sys2Proof

/-- Why bytes are no instruction. Both R52 and R53 make the machine raise `IllegalInstruction`. -/
inductive DecodeError where
  /-- The opcode byte is one of the 108 that no row lists (R52). -/
  | unassignedOpcode (op : Byte)
  /-- A bit that the Encoding column prints as `0` is 1 (R53). -/
  | printedZeroSet (op : Byte)
  /-- There are fewer bytes than the instruction has; a fetch never gives so few. -/
  | truncated
deriving DecidableEq, Repr

/-! ### Fields -/

/-- Bits 7:4 of a byte: the operand-1 field (R46). -/
def hiNibble (b : Byte) : Nibble := b.extractLsb' 4 4

/-- Bits 3:0 of a byte: the operand-2 field (R46). -/
def loNibble (b : Byte) : Nibble := b.extractLsb' 0 4

/-- The register a 4-bit `RGTR` field selects: field value `i` is register `i` (R10). -/
def regOf (n : Nibble) : Reg := n.toFin

/-- The `RGTR` field that selects a register (R10). -/
def nibbleOf (r : Reg) : Nibble := BitVec.ofFin r

/-- The 16-bit value of an extension word: the byte at the lower address is the low one (R34, R48). -/
def wordOf (lo hi : Byte) : Word := hi ++ lo

/-- The low byte of a 16-bit value, byte 2 of the instruction (R47). -/
def loByte (w : Word) : Byte := w.extractLsb' 0 8

/-- The high byte of a 16-bit value, byte 3 of the instruction (R47). -/
def hiByte (w : Word) : Byte := w.extractLsb' 8 8

/-! ### The opcode map -/

/-- One row of the opcode table: its format (R47) and the instruction its operand fields make. -/
inductive OpcodeRow where
  | rr (mk : Reg → Reg → Instr)
  | r (mk : Reg → Instr)
  | rn (mk : Reg → Nibble → Instr)
  | n (mk : Nibble → Instr)
  | z (i : Instr)
  | b (mk : Byte → Instr)
  | rw (mk : Reg → Word → Instr)
  | rb (mk : Reg → Byte → Instr)
  | w (mk : Word → Instr)
  | qw (mk : Word → Reg → Instr)

/-- The opcode rows of arithmetic (40_arithmetic.md), in opcode order. -/
def rowsArith : List (Nat × OpcodeRow) :=
  [(0x07, OpcodeRow.rr Instr.addWR), (0x08, OpcodeRow.rr Instr.adsWR), (0x09, OpcodeRow.rn Instr.adqWU),
   (0x0A, OpcodeRow.rr Instr.subWR), (0x0B, OpcodeRow.rr Instr.sbsWR), (0x0C, OpcodeRow.rn Instr.sbqWU),
   (0x0D, OpcodeRow.rr Instr.mulWR), (0x0E, OpcodeRow.rr Instr.mlsWR), (0x0F, OpcodeRow.rr Instr.divWR),
   (0x10, OpcodeRow.rr Instr.dvsWR), (0x47, OpcodeRow.rr Instr.addBR), (0x48, OpcodeRow.rr Instr.adsBR),
   (0x49, OpcodeRow.rn Instr.adqBU), (0x4A, OpcodeRow.rr Instr.subBR), (0x4B, OpcodeRow.rr Instr.sbsBR),
   (0x4C, OpcodeRow.rn Instr.sbqBU), (0x4D, OpcodeRow.rr Instr.mulBR), (0x4E, OpcodeRow.rr Instr.mlsBR),
   (0x4F, OpcodeRow.rr Instr.divBR), (0x50, OpcodeRow.rr Instr.dvsBR), (0x87, OpcodeRow.rw Instr.addWI),
   (0x88, OpcodeRow.rw Instr.adsWI), (0x89, OpcodeRow.rn Instr.adqWS), (0x8A, OpcodeRow.rw Instr.subWI)] ++
  [(0x8B, OpcodeRow.rw Instr.sbsWI), (0x8C, OpcodeRow.rn Instr.sbqWS), (0x8D, OpcodeRow.rw Instr.mulWI),
   (0x8E, OpcodeRow.rw Instr.mlsWI), (0x8F, OpcodeRow.rw Instr.divWI), (0x90, OpcodeRow.rw Instr.dvsWI),
   (0x94, OpcodeRow.r Instr.negW), (0xC7, OpcodeRow.rb Instr.addBI), (0xC8, OpcodeRow.rb Instr.adsBI),
   (0xC9, OpcodeRow.rn Instr.adqBS), (0xCA, OpcodeRow.rb Instr.subBI), (0xCB, OpcodeRow.rb Instr.sbsBI),
   (0xCC, OpcodeRow.rn Instr.sbqBS), (0xCD, OpcodeRow.rb Instr.mulBI), (0xCE, OpcodeRow.rb Instr.mlsBI),
   (0xCF, OpcodeRow.rb Instr.divBI), (0xD0, OpcodeRow.rb Instr.dvsBI), (0xD4, OpcodeRow.r Instr.negB)]

/-- The opcode rows of logic, shifts, rotates, swap (41_logic_shift.md), in opcode order. -/
def rowsLogic : List (Nat × OpcodeRow) :=
  [(0x11, OpcodeRow.rr Instr.andWR), (0x12, OpcodeRow.rr Instr.orWR), (0x13, OpcodeRow.rr Instr.xorWR),
   (0x14, OpcodeRow.r Instr.notW), (0x15, OpcodeRow.rn Instr.shlW), (0x16, OpcodeRow.rn Instr.rolW),
   (0x51, OpcodeRow.rr Instr.andBR), (0x52, OpcodeRow.rr Instr.orBR), (0x53, OpcodeRow.rr Instr.xorBR),
   (0x54, OpcodeRow.r Instr.notB), (0x55, OpcodeRow.rn Instr.shlB), (0x56, OpcodeRow.rn Instr.rolB),
   (0x85, OpcodeRow.r Instr.swpW), (0x91, OpcodeRow.rw Instr.andWI), (0x92, OpcodeRow.rw Instr.orWI),
   (0x93, OpcodeRow.rw Instr.xorWI), (0x95, OpcodeRow.rn Instr.shrW), (0x96, OpcodeRow.rn Instr.rorW),
   (0xC5, OpcodeRow.r Instr.swpB), (0xD1, OpcodeRow.rb Instr.andBI), (0xD2, OpcodeRow.rb Instr.orBI),
   (0xD3, OpcodeRow.rb Instr.xorBI), (0xD5, OpcodeRow.rn Instr.shrB), (0xD6, OpcodeRow.rn Instr.rorB)]

/-- The opcode rows of data movement (42_data_move.md), in opcode order. -/
def rowsDataMove : List (Nat × OpcodeRow) :=
  [(0x00, OpcodeRow.r Instr.pshWR), (0x01, OpcodeRow.r Instr.popW), (0x02, OpcodeRow.rr Instr.lWR),
   (0x03, OpcodeRow.rr Instr.sWR), (0x04, OpcodeRow.rr Instr.cpyW), (0x05, OpcodeRow.rr Instr.excW),
   (0x06, OpcodeRow.rn Instr.stqW), (0x24, OpcodeRow.r Instr.tsr), (0x40, OpcodeRow.r Instr.pshBR),
   (0x41, OpcodeRow.r Instr.popB), (0x42, OpcodeRow.rw Instr.lWA), (0x43, OpcodeRow.qw Instr.sWA),
   (0x44, OpcodeRow.rr Instr.cpyB), (0x45, OpcodeRow.rr Instr.excB), (0x46, OpcodeRow.rn Instr.stqB),
   (0x64, OpcodeRow.r Instr.trs), (0x80, OpcodeRow.w Instr.pshWI), (0x82, OpcodeRow.rr Instr.lBR),
   (0x83, OpcodeRow.rr Instr.sBR), (0x84, OpcodeRow.r Instr.clrW), (0xA4, OpcodeRow.r Instr.tpr),
   (0xC0, OpcodeRow.b Instr.pshBI), (0xC2, OpcodeRow.rw Instr.lBA), (0xC3, OpcodeRow.qw Instr.sBA)] ++
  [(0xC4, OpcodeRow.r Instr.clrB), (0xE4, OpcodeRow.r Instr.trp)]

/-- The opcode rows of compare (43_compare.md), in opcode order. -/
def rowsCompare : List (Nat × OpcodeRow) :=
  [(0x19, OpcodeRow.rr Instr.cmpWR), (0x1A, OpcodeRow.rn Instr.cmpWQ), (0x1B, OpcodeRow.rw Instr.dcpWI),
   (0x59, OpcodeRow.rr Instr.cmpBR), (0x5A, OpcodeRow.rn Instr.cmpBQ), (0x5B, OpcodeRow.rb Instr.dcpBI),
   (0x99, OpcodeRow.rw Instr.cmpWI), (0x9A, OpcodeRow.r Instr.zcpW), (0x9B, OpcodeRow.rr Instr.dcpWR),
   (0xD9, OpcodeRow.rb Instr.cmpBI), (0xDA, OpcodeRow.r Instr.zcpB), (0xDB, OpcodeRow.rr Instr.dcpBR)]

/-- The opcode rows of branches (44_branch.md), in opcode order. -/
def rowsBranch : List (Nat × OpcodeRow) :=
  [(0x18, OpcodeRow.z Instr.braR), (0x1C, OpcodeRow.w Instr.beqL), (0x1D, OpcodeRow.w Instr.bgtL),
   (0x1E, OpcodeRow.w Instr.bmtL), (0x1F, OpcodeRow.w Instr.bgeL), (0x20, OpcodeRow.w Instr.bmeL),
   (0x21, OpcodeRow.w Instr.brzL), (0x22, OpcodeRow.w Instr.brcL), (0x23, OpcodeRow.w Instr.brpL),
   (0x58, OpcodeRow.w Instr.braL), (0x5C, OpcodeRow.b Instr.beqS), (0x5D, OpcodeRow.b Instr.bgtS),
   (0x5E, OpcodeRow.b Instr.bmtS), (0x5F, OpcodeRow.b Instr.bgeS), (0x60, OpcodeRow.b Instr.bmeS),
   (0x61, OpcodeRow.b Instr.brzS), (0x62, OpcodeRow.b Instr.brcS), (0x63, OpcodeRow.b Instr.brpS),
   (0x98, OpcodeRow.b Instr.braS), (0x9C, OpcodeRow.w Instr.bneL), (0x9D, OpcodeRow.w Instr.bltL),
   (0x9E, OpcodeRow.w Instr.bftL), (0x9F, OpcodeRow.w Instr.bleL), (0xA0, OpcodeRow.w Instr.bfeL)] ++
  [(0xA1, OpcodeRow.w Instr.bnzL), (0xA2, OpcodeRow.w Instr.broL), (0xA3, OpcodeRow.w Instr.brnL),
   (0xDC, OpcodeRow.b Instr.bneS), (0xDD, OpcodeRow.b Instr.bltS), (0xDE, OpcodeRow.b Instr.bftS),
   (0xDF, OpcodeRow.b Instr.bleS), (0xE0, OpcodeRow.b Instr.bfeS), (0xE1, OpcodeRow.b Instr.bnzS),
   (0xE2, OpcodeRow.b Instr.broS), (0xE3, OpcodeRow.b Instr.brnS)]

/-- The opcode rows of jump, call, return (45_jump_call.md), in opcode order. -/
def rowsJump : List (Nat × OpcodeRow) :=
  [(0x17, OpcodeRow.r Instr.jmpR), (0x57, OpcodeRow.w Instr.jmpA), (0x97, OpcodeRow.r Instr.jsrR),
   (0xD7, OpcodeRow.w Instr.jsrA), (0xD8, OpcodeRow.z Instr.ret)]

/-- The opcode rows of system (46_system.md), in opcode order. -/
def rowsSystem : List (Nat × OpcodeRow) :=
  [(0x25, OpcodeRow.z Instr.rti), (0x65, OpcodeRow.z Instr.ent), (0xA5, OpcodeRow.z Instr.lve),
   (0xE5, OpcodeRow.n Instr.io)]

/-- The opcode map (R50): 148 rows. -/
def opcodeTable : List (Nat × OpcodeRow) :=
  rowsArith ++ rowsLogic ++ rowsDataMove ++ rowsCompare ++ rowsBranch ++ rowsJump ++ rowsSystem

/-- The row of an opcode byte, where one is assigned (R50, R52). -/
def opcodeRow (op : Nat) : Option OpcodeRow := opcodeTable.lookup op

/-- How many bytes an instruction of a format has (R47). -/
def formatLength : OpcodeRow → Nat
  | .rr _ => 2
  | .r _ => 2
  | .rn _ => 2
  | .n _ => 2
  | .z _ => 2
  | .b _ => 2
  | .rw _ => 4
  | .rb _ => 4
  | .w _ => 4
  | .qw _ => 4

/-- The length of an instruction, told from its opcode byte alone (R51, R55). -/
def opcodeLength (op : Nat) : Option Nat := (opcodeRow op).map formatLength

/-! ### Decoding -/

/-- The instruction `i` where the printed-zero bits are all 0, a rejection by name where one is not (R53). -/
def zeroChecked (op : Byte) (zeros : Bool) (i : Instr) (rest : List Byte) : Except DecodeError (Instr × List Byte) :=
  if zeros then .ok (i, rest) else .error (.printedZeroSet op)

/-- The operand bytes of a row read by its format (R46, R47, R48, R53), with the bytes that follow the instruction. -/
def readOperands (op : Byte) : OpcodeRow → List Byte → Except DecodeError (Instr × List Byte)
  | .rr mk, b1 :: rest => .ok (mk (regOf (hiNibble b1)) (regOf (loNibble b1)), rest)
  | .r mk, b1 :: rest => zeroChecked op (loNibble b1 == 0#4) (mk (regOf (hiNibble b1))) rest
  | .rn mk, b1 :: rest => .ok (mk (regOf (hiNibble b1)) (loNibble b1), rest)
  | .n mk, b1 :: rest => zeroChecked op (loNibble b1 == 0#4) (mk (hiNibble b1)) rest
  | .z i, b1 :: rest => zeroChecked op (b1 == 0#8) i rest
  | .b mk, b1 :: rest => .ok (mk b1, rest)
  | .rw mk, b1 :: b2 :: b3 :: rest =>
    zeroChecked op (loNibble b1 == 0#4) (mk (regOf (hiNibble b1)) (wordOf b2 b3)) rest
  | .rb mk, b1 :: b2 :: b3 :: rest =>
    zeroChecked op (loNibble b1 == 0#4 && b3 == 0#8) (mk (regOf (hiNibble b1)) b2) rest
  | .w mk, b1 :: b2 :: b3 :: rest => zeroChecked op (b1 == 0#8) (mk (wordOf b2 b3)) rest
  | .qw mk, b1 :: b2 :: b3 :: rest =>
    zeroChecked op (hiNibble b1 == 0#4) (mk (wordOf b2 b3) (regOf (loNibble b1))) rest
  | _, _ => .error .truncated

/-- The instruction at the head of a list of bytes, lowest address first, with the bytes after it (R44, R45, R52). -/
def decode : List Byte → Except DecodeError (Instr × List Byte)
  | [] => .error .truncated
  | op :: bytes =>
    match opcodeRow op.toNat with
    | none => .error (.unassignedOpcode op)
    | some row => readOperands op row bytes

/-! ### Encoding -/

/-- Format RR (R47). -/
def encRR (op : Byte) (p q : Reg) : List Byte := [op, nibbleOf p ++ nibbleOf q]

/-- Format R (R47). -/
def encR (op : Byte) (p : Reg) : List Byte := [op, nibbleOf p ++ 0#4]

/-- Format RN (R47). -/
def encRN (op : Byte) (p : Reg) (n : Nibble) : List Byte := [op, nibbleOf p ++ n]

/-- Format N (R47). -/
def encN (op : Byte) (n : Nibble) : List Byte := [op, n ++ 0#4]

/-- Format Z (R47). -/
def encZ (op : Byte) : List Byte := [op, 0#8]

/-- Format B (R47). -/
def encB (op : Byte) (b : Byte) : List Byte := [op, b]

/-- Format RW (R47). -/
def encRW (op : Byte) (p : Reg) (imm : Word) : List Byte := [op, nibbleOf p ++ 0#4, loByte imm, hiByte imm]

/-- Format RB (R47). -/
def encRB (op : Byte) (p : Reg) (b : Byte) : List Byte := [op, nibbleOf p ++ 0#4, b, 0#8]

/-- Format W (R47). -/
def encW (op : Byte) (imm : Word) : List Byte := [op, 0#8, loByte imm, hiByte imm]

/-- Format QW (R47). -/
def encQW (op : Byte) (imm : Word) (q : Reg) : List Byte := [op, 0#4 ++ nibbleOf q, loByte imm, hiByte imm]

/-- The bytes of an instruction, lowest address first (R44, R47), written from each row's Encoding column. -/
def encode : Instr → List Byte
  | .addWR p q => encRR 0x07#8 p q
  | .addBR p q => encRR 0x47#8 p q
  | .addWI p imm => encRW 0x87#8 p imm
  | .addBI p b => encRB 0xC7#8 p b
  | .adqWU p n => encRN 0x09#8 p n
  | .adqBU p n => encRN 0x49#8 p n
  | .adqWS p n => encRN 0x89#8 p n
  | .adqBS p n => encRN 0xC9#8 p n
  | .adsWR p q => encRR 0x08#8 p q
  | .adsBR p q => encRR 0x48#8 p q
  | .adsWI p imm => encRW 0x88#8 p imm
  | .adsBI p b => encRB 0xC8#8 p b
  | .subWR p q => encRR 0x0A#8 p q
  | .subBR p q => encRR 0x4A#8 p q
  | .subWI p imm => encRW 0x8A#8 p imm
  | .subBI p b => encRB 0xCA#8 p b
  | .sbqWU p n => encRN 0x0C#8 p n
  | .sbqBU p n => encRN 0x4C#8 p n
  | .sbqWS p n => encRN 0x8C#8 p n
  | .sbqBS p n => encRN 0xCC#8 p n
  | .sbsWR p q => encRR 0x0B#8 p q
  | .sbsBR p q => encRR 0x4B#8 p q
  | .sbsWI p imm => encRW 0x8B#8 p imm
  | .sbsBI p b => encRB 0xCB#8 p b
  | .mulWR p q => encRR 0x0D#8 p q
  | .mulBR p q => encRR 0x4D#8 p q
  | .mulWI p imm => encRW 0x8D#8 p imm
  | .mulBI p b => encRB 0xCD#8 p b
  | .mlsWR p q => encRR 0x0E#8 p q
  | .mlsBR p q => encRR 0x4E#8 p q
  | .mlsWI p imm => encRW 0x8E#8 p imm
  | .mlsBI p b => encRB 0xCE#8 p b
  | .divWR p q => encRR 0x0F#8 p q
  | .divBR p q => encRR 0x4F#8 p q
  | .divWI p imm => encRW 0x8F#8 p imm
  | .divBI p b => encRB 0xCF#8 p b
  | .dvsWR p q => encRR 0x10#8 p q
  | .dvsBR p q => encRR 0x50#8 p q
  | .dvsWI p imm => encRW 0x90#8 p imm
  | .dvsBI p b => encRB 0xD0#8 p b
  | .negW p => encR 0x94#8 p
  | .negB p => encR 0xD4#8 p
  | .andWR p q => encRR 0x11#8 p q
  | .andBR p q => encRR 0x51#8 p q
  | .andWI p imm => encRW 0x91#8 p imm
  | .andBI p b => encRB 0xD1#8 p b
  | .orWR p q => encRR 0x12#8 p q
  | .orBR p q => encRR 0x52#8 p q
  | .orWI p imm => encRW 0x92#8 p imm
  | .orBI p b => encRB 0xD2#8 p b
  | .xorWR p q => encRR 0x13#8 p q
  | .xorBR p q => encRR 0x53#8 p q
  | .xorWI p imm => encRW 0x93#8 p imm
  | .xorBI p b => encRB 0xD3#8 p b
  | .notW p => encR 0x14#8 p
  | .notB p => encR 0x54#8 p
  | .shlW p n => encRN 0x15#8 p n
  | .shlB p n => encRN 0x55#8 p n
  | .shrW p n => encRN 0x95#8 p n
  | .shrB p n => encRN 0xD5#8 p n
  | .rolW p n => encRN 0x16#8 p n
  | .rolB p n => encRN 0x56#8 p n
  | .rorW p n => encRN 0x96#8 p n
  | .rorB p n => encRN 0xD6#8 p n
  | .swpW p => encR 0x85#8 p
  | .swpB p => encR 0xC5#8 p
  | .cpyW p q => encRR 0x04#8 p q
  | .cpyB p q => encRR 0x44#8 p q
  | .clrW p => encR 0x84#8 p
  | .clrB p => encR 0xC4#8 p
  | .stqW p n => encRN 0x06#8 p n
  | .stqB p n => encRN 0x46#8 p n
  | .excW p q => encRR 0x05#8 p q
  | .excB p q => encRR 0x45#8 p q
  | .lWR p q => encRR 0x02#8 p q
  | .lWA p imm => encRW 0x42#8 p imm
  | .lBR p q => encRR 0x82#8 p q
  | .lBA p imm => encRW 0xC2#8 p imm
  | .sWR p q => encRR 0x03#8 p q
  | .sWA imm q => encQW 0x43#8 imm q
  | .sBR p q => encRR 0x83#8 p q
  | .sBA imm q => encQW 0xC3#8 imm q
  | .pshWR p => encR 0x00#8 p
  | .pshBR p => encR 0x40#8 p
  | .pshWI imm => encW 0x80#8 imm
  | .pshBI b => encB 0xC0#8 b
  | .popW p => encR 0x01#8 p
  | .popB p => encR 0x41#8 p
  | .tsr p => encR 0x24#8 p
  | .trs p => encR 0x64#8 p
  | .tpr p => encR 0xA4#8 p
  | .trp p => encR 0xE4#8 p
  | .cmpWR p q => encRR 0x19#8 p q
  | .cmpWQ p n => encRN 0x1A#8 p n
  | .cmpBR p q => encRR 0x59#8 p q
  | .cmpBQ p n => encRN 0x5A#8 p n
  | .cmpWI p imm => encRW 0x99#8 p imm
  | .cmpBI p b => encRB 0xD9#8 p b
  | .dcpWI p imm => encRW 0x1B#8 p imm
  | .dcpBI p b => encRB 0x5B#8 p b
  | .dcpWR p q => encRR 0x9B#8 p q
  | .dcpBR p q => encRR 0xDB#8 p q
  | .zcpW p => encR 0x9A#8 p
  | .zcpB p => encR 0xDA#8 p
  | .beqL imm => encW 0x1C#8 imm
  | .beqS b => encB 0x5C#8 b
  | .bfeL imm => encW 0xA0#8 imm
  | .bfeS b => encB 0xE0#8 b
  | .bftL imm => encW 0x9E#8 imm
  | .bftS b => encB 0xDE#8 b
  | .bgeL imm => encW 0x1F#8 imm
  | .bgeS b => encB 0x5F#8 b
  | .bgtL imm => encW 0x1D#8 imm
  | .bgtS b => encB 0x5D#8 b
  | .bleL imm => encW 0x9F#8 imm
  | .bleS b => encB 0xDF#8 b
  | .bltL imm => encW 0x9D#8 imm
  | .bltS b => encB 0xDD#8 b
  | .bmeL imm => encW 0x20#8 imm
  | .bmeS b => encB 0x60#8 b
  | .bmtL imm => encW 0x1E#8 imm
  | .bmtS b => encB 0x5E#8 b
  | .bneL imm => encW 0x9C#8 imm
  | .bneS b => encB 0xDC#8 b
  | .bnzL imm => encW 0xA1#8 imm
  | .bnzS b => encB 0xE1#8 b
  | .braR => encZ 0x18#8
  | .braL imm => encW 0x58#8 imm
  | .braS b => encB 0x98#8 b
  | .brcL imm => encW 0x22#8 imm
  | .brcS b => encB 0x62#8 b
  | .brnL imm => encW 0xA3#8 imm
  | .brnS b => encB 0xE3#8 b
  | .broL imm => encW 0xA2#8 imm
  | .broS b => encB 0xE2#8 b
  | .brpL imm => encW 0x23#8 imm
  | .brpS b => encB 0x63#8 b
  | .brzL imm => encW 0x21#8 imm
  | .brzS b => encB 0x61#8 b
  | .jmpR p => encR 0x17#8 p
  | .jmpA imm => encW 0x57#8 imm
  | .jsrR p => encR 0x97#8 p
  | .jsrA imm => encW 0xD7#8 imm
  | .ret => encZ 0xD8#8
  | .ent => encZ 0x65#8
  | .lve => encZ 0xA5#8
  | .io n => encN 0xE5#8 n
  | .rti => encZ 0x25#8

/-! ### The host's words -/

/-- The four bytes at rising addresses of an instruction given as one number of `nbits` bits, numbered as
spec/opcode_table.json numbers `match`, `mask` and `fixed`: byte 0, the opcode byte, in the most significant place.
DEDUCED, unsafe (log 9). Bytes past the number are 0. -/
def tableBytes (nbits w : Nat) : List Byte :=
  (List.range 4).map fun k => if k < nbits / 8 then BitVec.ofNat 8 (w >>> (8 * (nbits / 8 - 1 - k))) else 0#8

/-- The instruction the decoder reads from a table word of `nbits` bits (log 9). -/
def decodeTableWord (nbits w : Nat) : Option Instr :=
  match decode (tableBytes nbits w) with
  | .ok (i, _) => some i
  | .error _ => none

end Sys2Proof
end

