-- ==== Sys2Proof/Config.lean ====
section
/-! DEFINITION. What the spec leaves to the implementation: the open parameters of R2 (00_scope.md) and the free
values of R17 (10_state.md). An opaque constant has no body, so no proof can learn its value. -/

namespace Sys2Proof.Config

/-- `RESET_PC`, an open parameter (R2, R22, D24). DESIGN CHOICE $0000, unsafe (log 2): no statement may rest on it;
`State.resetFrom` takes the reset address as an argument. -/
def resetPc : Word := 0x0000#16

/-- `ENTER_PROT_VECTOR`: the entry address of the 'enter protection' handler (R2, R184, R188), an open parameter
(log 4, safe). -/
opaque enterProtVector : Word

/-- `LEAVE_PROT_VECTOR`: the entry address of the 'leave protection' handler (R2, R184, R188), an open parameter
(log 4, safe). -/
opaque leaveProtVector : Word

/-- The `draw` of R5 and R17 for one bit: the value the spec does not fix, one for each draw the machine makes
(log 5). -/
opaque freeBit : Nat → Bool

end Sys2Proof.Config
end

