-- ==== Sys2Proof/Machine/State.lean ====
section
/-! DEFINITION. The architectural state of CPU16 (R24 of 10_state.md), the reasons a step can stop (R180, R181 of
60_exceptions.md) and the state after reset (R22 of 10_state.md). -/

namespace Sys2Proof.Machine

/-- The four one-bit flags, in the order of the source's tables: N V Z C (R16). -/
structure Flags where
  n : Bool
  v : Bool
  z : Bool
  c : Bool
deriving DecidableEq, Repr

/-- The 65536 bytes of memory (R30) as the list of those that differ from what an unlisted address reads as, addresses
strictly rising; `Memory.wf` (Machine/Ops.lean) states that form. -/
structure Memory where
  cells : List Host.Cell
deriving DecidableEq, Repr

/-- Every piece of state the spec gives the machine (R24), and the model's own draw counter. -/
structure State where
  /-- The all-purpose registers `x[0..15]` (R10, R11). -/
  regs : Vector Word 16
  /-- The Program Counter: a byte address (R14). -/
  pc : Word
  /-- The flags N V Z C (R16). -/
  flags : Flags
  /-- The stack register (R18). -/
  sp : Word
  /-- The Program Counter Stack register "PcStack" (R19). -/
  pcs : Word
  /-- 1 (`true`) in Protected Mode (R20). -/
  prot : Bool
  /-- The 2-bit value on the IO data pins (R21). -/
  iopins : BitVec 2
  /-- Memory (R30). -/
  mem : Memory
  /-- The MODEL's own: how many free values have been drawn (log 5). Not state of the spec. -/
  draws : Nat
deriving DecidableEq, Repr

/-- The faults of R181. Each holds the `pc` of the faulting instruction: with the constructor's name it is the fault
mark of R180 and R183 (log 6). The step that raises one has changed nothing, and the machine takes no further step. -/
inductive Fault where
  /-- Raised by the fetch of an unassigned opcode byte (R52), by a printed-zero bit that is 1 (R53), and by `io` with
  field value 4..15 (R56, R169). Safe: the model stops where the hardware may go on. -/
  | illegalInstruction (pc : Word)
  /-- Raised by `ent` and `io` in Protected Mode (R167, R169, R186). Safe: the model stops where the hardware may go
  on. -/
  | protectionViolation (pc : Word)
  /-- Raised by `div` and `dvs` when the divisor is zero at the operation's width (R81, R82). Safe: the model stops
  where the hardware may go on. -/
  | divideByZero (pc : Word)
deriving DecidableEq, Repr

/-- Why an instruction has no meaning in the model. -/
inductive Refusal where
  /-- Raised by an arm of `exec` that has no meaning yet; no arm of this model does. Safe: the model says nothing. -/
  | notModelled (mnemonic : String)
deriving DecidableEq, Repr

/-- What the spec leaves open about the state after reset (R22, U10, U12): an argument of the initial state. -/
structure ResetParams where
  regs : Vector Word 16
  pc : Word
  flags : Flags
  sp : Word
  pcs : Word
  iopins : BitVec 2
  mem : Memory
  draws : Nat
deriving DecidableEq, Repr

/-- The state after reset, for whatever the spec leaves open: it fixes `prot = 0` alone (R22, R200, R187). -/
def State.resetFrom (r : ResetParams) : State where
  regs := r.regs
  pc := r.pc
  flags := r.flags
  sp := r.sp
  pcs := r.pcs
  prot := false
  iopins := r.iopins
  mem := r.mem
  draws := r.draws

/-- The values this model names for what the spec leaves open at reset: DESIGN CHOICE, unsafe (log 1 for the
registers, flags and pins, log 2 for `pc`, log 3 for memory, log 5 for the draw counter). -/
def ResetParams.chosen : ResetParams where
  regs := Vector.replicate 16 0x0000#16
  pc := Config.resetPc
  flags := { n := false, v := false, z := false, c := false }
  sp := 0x0000#16
  pcs := 0x0000#16
  iopins := 0#2
  mem := { cells := [] }
  draws := 0

/-- The machine right after reset (R22, R200), with the open values at those of `ResetParams.chosen`. -/
def State.reset : State := State.resetFrom ResetParams.chosen

end Sys2Proof.Machine
end

