-- ==== Sys2Proof/Machine/Ops.lean ====
section
/-! DEFINITION. The named operations over memory and registers: the state accessors of R5 (00_scope.md), memory (R30 to
R37 of 20_memory.md), fetch (R44), the stacks (R117 of 42_data_move.md, R161 of 45_jump_call.md), raising a fault (R180
of 60_exceptions.md), the interrupt call and the return from it (R188, R189). -/

namespace Sys2Proof.Machine

/-- What one step or one instruction answers. -/
abbrev Result := Host.Outcome State Fault Refusal

/-! ### Memory -/

/-- What an address that memory does not list reads as: the `MEM_INIT` byte there, of which the spec says nothing.
DESIGN CHOICE $00, unsafe (log 3). -/
def Memory.unlisted : Byte := 0x00#8

/-- The byte a list of cells holds at an address. -/
def lookupCell : List Host.Cell → Nat → Byte
  | [], _ => Memory.unlisted
  | (b, v) :: rest, a => if a = b then v else lookupCell rest a

/-- A cell put in front of a list, left out where it reads as an unlisted address does. -/
def consCell (a : Nat) (v : Byte) (rest : List Host.Cell) : List Host.Cell :=
  if v = Memory.unlisted then rest else (a, v) :: rest

/-- One byte stored into a rising list of cells. -/
def storeCell : List Host.Cell → Nat → Byte → List Host.Cell
  | [], a, v => consCell a v []
  | (b, x) :: rest, a, v =>
    if a < b then consCell a v ((b, x) :: rest)
    else if a = b then consCell a v rest
    else (b, x) :: storeCell rest a v

/-- The canonical form from address `lo` on: addresses rising, inside the 2^16 bytes of R30, no cell that reads as an
unlisted address does. -/
def cellsFrom : Nat → List Host.Cell → Bool
  | _, [] => true
  | lo, (a, v) :: rest =>
    decide (lo ≤ a) && decide (a < 65536) && decide (v ≠ Memory.unlisted) && cellsFrom (a + 1) rest

/-- Memory is in its one canonical form. -/
def Memory.wf (m : Memory) : Bool := cellsFrom 0 m.cells

/-- `MemRead(a, 1)` (R32). -/
def Memory.readByte (m : Memory) (a : Word) : Byte := lookupCell m.cells a.toNat

/-- `MemRead(a, 2)`: the byte at the lower address is the less significant one (R32, R34). -/
def Memory.readWord (m : Memory) (a : Word) : Word := m.readByte (a + 1#16) ++ m.readByte a

/-- `MemWrite(a, 1, v)` (R33). -/
def Memory.writeByte (m : Memory) (a : Word) (v : Byte) : Memory := { cells := storeCell m.cells a.toNat v }

/-- `MemWrite(a, 2, v)`: the low byte at `a`, the high byte at `a + 1`, addresses wrapping (R33, R34). -/
def Memory.writeWord (m : Memory) (a : Word) (v : Word) : Memory :=
  (m.writeByte a (v.extractLsb' 0 8)).writeByte (a + 1#16) (v.extractLsb' 8 8)

/-- `MemRead(a, W/8)` (R32, R36). -/
def Memory.readAt (m : Memory) (w : Width) (a : Word) : BitVec w.bits :=
  match w with
  | .byte => m.readByte a
  | .word => m.readWord a

/-- `MemWrite(a, W/8, v)` (R33, R36). -/
def Memory.writeAt (m : Memory) (w : Width) (a : Word) (v : BitVec w.bits) : Memory :=
  match w, v with
  | .byte, v => m.writeByte a v
  | .word, v => m.writeWord a v

/-- Bytes stored at rising addresses, wrapping past $FFFF as an instruction's bytes do (R44). -/
def Memory.writeBytes : Memory → Word → List Byte → Memory
  | m, _, [] => m
  | m, a, b :: bs => (m.writeByte a b).writeBytes (a + 1#16) bs

/-- `n` bytes read at rising addresses, wrapping past $FFFF (R44). -/
def Memory.readBytes (m : Memory) : Word → Nat → List Byte
  | _, 0 => []
  | a, n + 1 => m.readByte a :: m.readBytes (a + 1#16) n

/-! ### State updates -/

/-- The Program Counter set. -/
def State.setPc (s : State) (v : Word) : State := { s with pc := v }

/-- All four flags set. -/
def State.setFlags (s : State) (f : Flags) : State := { s with flags := f }

/-- The stack register set. -/
def State.setSp (s : State) (v : Word) : State := { s with sp := v }

/-- The Program Counter Stack register set. -/
def State.setPcs (s : State) (v : Word) : State := { s with pcs := v }

/-- The protected-mode bit set. -/
def State.setProt (s : State) (b : Bool) : State := { s with prot := b }

/-- The IO data pins driven. -/
def State.setIopins (s : State) (v : BitVec 2) : State := { s with iopins := v }

/-- Memory replaced. -/
def State.setMem (s : State) (m : Memory) : State := { s with mem := m }

/-- The model's draw counter set (log 5). -/
def State.setDraws (s : State) (k : Nat) : State := { s with draws := k }

/-- `x[i]` (R5, R10). -/
def State.x (s : State) (i : Reg) : Word := s.regs.get i

/-- `x[i] <- v`, all 16 bits (R5, R10). -/
def State.setX (s : State) (i : Reg) (v : Word) : State := { s with regs := s.regs.set i.val v i.isLt }

/-! ### The Program Counter -/

/-- `pc_next` of an instruction of `len` bytes (R15). -/
def State.pcNext (s : State) (len : Nat) : Word := s.pc + BitVec.ofNat 16 len

/-- The end of an instruction that transfers no control (R15): `pc <- pc_next`. -/
def State.advance (s : State) (len : Nat) : State := s.setPc (s.pcNext len)

/-! ### Fetch -/

/-- The bytes of the instruction at `pc`: the opcode byte, and the rest of it where the opcode is assigned (R23 steps 1
to 4, R44, R52). -/
def State.fetchBytes (s : State) : List Byte :=
  match opcodeLength (s.mem.readByte s.pc).toNat with
  | none => [s.mem.readByte s.pc]
  | some len => s.mem.readBytes s.pc len

/-- The instruction at `pc` (R23 steps 1 to 5). -/
def State.fetch (s : State) : Except DecodeError Instr :=
  match decode s.fetchBytes with
  | .ok (i, _) => .ok i
  | .error e => .error e

/-! ### The stacks -/

/-- Push on the data stack: subtract the size, then write (R117). -/
def State.pushData (s : State) (w : Width) (v : BitVec w.bits) : State :=
  let top := s.sp - BitVec.ofNat 16 w.bytes
  (s.setSp top).setMem (s.mem.writeAt w top v)

/-- Push of an address on the PC Stack: 2 bytes, low byte at the new `pcs` (R161, R188). -/
def State.pushPc (s : State) (v : Word) : State :=
  let top := s.pcs - 2#16
  (s.setPcs top).setMem (s.mem.writeWord top v)

/-- Pop of the PC Stack into `pc` (R162, R170). -/
def State.popPc (s : State) : State :=
  let target := s.mem.readWord s.pcs
  (s.setPcs (s.pcs + 2#16)).setPc target

/-! ### Faults and interrupts -/

/-- `raise`: the instruction is abandoned with nothing changed and the machine stops, the fault's name and the `pc`
recorded (R180, R183). -/
def raise (fault : Word → Fault) (s : State) : Result := .fault (fault s.pc)

/-- `call_interrupt(vec)`, called by an instruction of `len` bytes: the return address is pushed on the PC Stack and
`pc` becomes the vector; nothing else is saved or changed (R188). -/
def State.callInterrupt (s : State) (vec : Word) (len : Nat) : State := (s.pushPc (s.pcNext len)).setPc vec

/-- Return from interrupt: `pc` is restored from the PC Stack, and nothing else is (R170, R189). -/
def State.returnFromInterrupt (s : State) : State := s.popPc

end Sys2Proof.Machine
end

