-- ==== Sys2Proof/Machine/Operands.lean ====
section
/-! DEFINITION. Operand forms (R12, R13 of 10_state.md; R48, R49 of 30_encoding.md; R70 of 40_arithmetic.md; R132 of
44_branch.md). -/

namespace Sys2Proof.Machine

/-- `xr(i, W)`: the low `W` bits of register `i` (R12). -/
def State.xr (s : State) (i : Reg) (w : Width) : BitVec w.bits := (s.x i).setWidth w.bits

/-- What a register that held `old` holds after a typed write of `v`: a byte write keeps bits 15:8 (R12). -/
def mergeReg (w : Width) (old : Word) (v : BitVec w.bits) : Word :=
  match w, v with
  | .byte, v => old.extractLsb' 8 8 ++ v
  | .word, v => v

/-- `xw(i, W, v)` (R12). -/
def State.xw (s : State) (i : Reg) (w : Width) (v : BitVec w.bits) : State := s.setX i (mergeReg w (s.x i) v)

/-- The quick immediate `$Fu`: zero-extended to the operation's width (R48, R70). -/
def quickU (w : Width) (n : Nibble) : BitVec w.bits := n.setWidth w.bits

/-- The quick immediate `$Fs`: sign-extended to the operation's width (R48, R70). -/
def quickS (w : Width) (n : Nibble) : BitVec w.bits := n.signExtend w.bits

/-- `(PC + $FFFFs)`: the 16-bit offset added to the address of the instruction itself (R49, R132). -/
def State.relLong (s : State) (offset : Word) : Word := s.pc + offset

/-- `(PC + $FFs)`: the 8-bit offset, sign-extended, added to the address of the instruction itself (R49, R132). -/
def State.relShort (s : State) (offset : Byte) : Word := s.pc + offset.signExtend 16

/-- `(PC + r)` of `bra` $18: the register is `r0` (R61, R145). -/
def State.relReg (s : State) : Word := s.pc + s.x 0

end Sys2Proof.Machine
end

