-- ==== Sys2Proof/Machine/Flags.lean ====
section
/-! DEFINITION. Every flag computation the spec gives (R17 of 10_state.md; R71, R72, R79 to R82 of 40_arithmetic.md; R94,
R95, R99 of 41_logic_shift.md). Operands are exact integers first and are narrowed at the end. -/

namespace Sys2Proof.Machine

/-- `setNZ(W, r)`: N is the top bit of the result, Z says it is zero, V and C keep their values (R17). -/
def setNZ {w : Nat} (r : BitVec w) (f : Flags) : Flags := { f with n := r.msb, z := decide (r = 0#w) }

/-- N and Z from the result, V and C given (the shape of every table that writes all four flags). -/
def flagsOf {w : Nat} (r : BitVec w) (v c : Bool) : Flags := { n := r.msb, v := v, z := decide (r = 0#w), c := c }

/-- `AddFlags(W, a, b)` (R71). -/
def addFlags {w : Nat} (a b : BitVec w) : Flags :=
  flagsOf (a + b) (a.msb == b.msb && (a + b).msb != a.msb) (decide (2 ^ w ≤ a.toNat + b.toNat))

/-- `SubFlags(W, a, b)`: C is the borrow (R72). -/
def subFlags {w : Nat} (a b : BitVec w) : Flags :=
  flagsOf (a - b) (a.msb != b.msb && (a - b).msb != a.msb) (decide (a.toNat < b.toNat))

/-- N and Z of the bitwise instructions and of `cpy`, with V and C cleared (R99, R105). -/
def logicFlags {w : Nat} (r : BitVec w) : Flags := flagsOf r false false

/-- The low `W` bits of the unsigned product (R79). -/
def mulResult {w : Nat} (a b : BitVec w) : BitVec w := BitVec.ofNat w (a.toNat * b.toNat)

/-- The flags of `mul`: C and V both say that the unsigned product does not fit (R79). -/
def mulFlags {w : Nat} (a b : BitVec w) : Flags :=
  let lost := decide (2 ^ w ≤ a.toNat * b.toNat)
  flagsOf (mulResult a b) lost lost

/-- The low `W` bits of the signed product (R80). -/
def mlsResult {w : Nat} (a b : BitVec w) : BitVec w := BitVec.ofInt w (a.toInt * b.toInt)

/-- The flags of `mls`: V and C both say that the signed product does not fit (R80). -/
def mlsFlags {w : Nat} (a b : BitVec w) : Flags :=
  let full := a.toInt * b.toInt
  let lost := decide (full < -((2 ^ (w - 1) : Nat) : Int)) || decide (((2 ^ (w - 1) : Nat) : Int) - 1 < full)
  flagsOf (mlsResult a b) lost lost

/-- The unsigned quotient, rounded down (R81). Used only where the divisor is not zero. -/
def divResult {w : Nat} (a b : BitVec w) : BitVec w := BitVec.ofNat w (a.toNat / b.toNat)

/-- The flags of `div`: V and C cleared (R81). -/
def divFlags {w : Nat} (a b : BitVec w) : Flags := flagsOf (divResult a b) false false

/-- The signed quotient, rounded toward zero, as an integer (R82). Used only where the divisor is not zero. -/
def dvsQuotient {w : Nat} (a b : BitVec w) : Int := a.toInt.tdiv b.toInt

/-- The signed quotient narrowed to `W` bits (R82). -/
def dvsResult {w : Nat} (a b : BitVec w) : BitVec w := BitVec.ofInt w (dvsQuotient a b)

/-- The flags of `dvs`: V in the one overflow case, C cleared (R82). -/
def dvsFlags {w : Nat} (a b : BitVec w) : Flags :=
  flagsOf (dvsResult a b) (decide (((2 ^ (w - 1) : Nat) : Int) - 1 < dvsQuotient a b)) false

/-- The result of a left shift by `k` (R94). -/
def shlResult {w : Nat} (a : BitVec w) (k : Nat) : BitVec w := BitVec.ofNat w (a.toNat * 2 ^ k)

/-- The C flag of `shl`: a 1 bit was shifted out of the top (R94). -/
def shlCarry {w : Nat} (a : BitVec w) (k : Nat) : Bool := decide (2 ^ w ≤ a.toNat * 2 ^ k)

/-- The result of a logical right shift by `k` (R95). -/
def shrResult {w : Nat} (a : BitVec w) (k : Nat) : BitVec w := BitVec.ofNat w (a.toNat / 2 ^ k)

/-- The C flag of `shr`: a 1 bit was shifted out of the bottom (R95). -/
def shrCarry {w : Nat} (a : BitVec w) (k : Nat) : Bool := decide (a.toNat % 2 ^ k ≠ 0)

/-- A left rotation within the `W` bits, the count taken modulo `W` (R96). -/
def rolResult {w : Nat} (a : BitVec w) (n : Nat) : BitVec w :=
  let k := n % w
  BitVec.ofNat w (a.toNat * 2 ^ k) ||| BitVec.ofNat w (a.toNat / 2 ^ (w - k))

/-- A right rotation within the `W` bits, the count taken modulo `W` (R97). -/
def rorResult {w : Nat} (a : BitVec w) (n : Nat) : BitVec w :=
  let k := n % w
  BitVec.ofNat w (a.toNat / 2 ^ k) ||| BitVec.ofNat w (a.toNat * 2 ^ (w - k))

/-- The halves of the `W` bits exchanged (R98). -/
def swpResult {w : Nat} (a : BitVec w) : BitVec w :=
  BitVec.ofNat w (a.toNat * 2 ^ (w / 2)) ||| BitVec.ofNat w (a.toNat / 2 ^ (w / 2))

end Sys2Proof.Machine
end

