-- ==== Sys2Proof/Machine/Arith.lean ====
section
/-! DEFINITION. The arithmetic instructions (40_arithmetic.md, R70 to R84). -/

namespace Sys2Proof.Machine

/-- A `W`-bit result written to register `p` with all four flags, in an instruction of `len` bytes (R12, R15). -/
def writeResult (w : Width) (p : Reg) (r : BitVec w.bits) (f : Flags) (len : Nat) (s : State) : Result :=
  .next (((s.xw p w r).setFlags f).advance len)

/-- `p = p + b` (R71, R73 to R75). -/
def addInto (w : Width) (p : Reg) (b : BitVec w.bits) (len : Nat) (s : State) : Result :=
  writeResult w p (s.xr p w + b) (addFlags (s.xr p w) b) len s

/-- `p = p - b` (R72, R76 to R78). -/
def subInto (w : Width) (p : Reg) (b : BitVec w.bits) (len : Nat) (s : State) : Result :=
  writeResult w p (s.xr p w - b) (subFlags (s.xr p w) b) len s

/-- `p = p × b`, unsigned (R79). -/
def mulInto (w : Width) (p : Reg) (b : BitVec w.bits) (len : Nat) (s : State) : Result :=
  writeResult w p (mulResult (s.xr p w) b) (mulFlags (s.xr p w) b) len s

/-- `p = p × b`, signed (R80). -/
def mlsInto (w : Width) (p : Reg) (b : BitVec w.bits) (len : Nat) (s : State) : Result :=
  writeResult w p (mlsResult (s.xr p w) b) (mlsFlags (s.xr p w) b) len s

/-- `p = p ÷ b`, unsigned; a zero divisor raises `DivideByZero` (R81). -/
def divInto (w : Width) (p : Reg) (b : BitVec w.bits) (len : Nat) (s : State) : Result :=
  if b = 0#w.bits then raise .divideByZero s
  else writeResult w p (divResult (s.xr p w) b) (divFlags (s.xr p w) b) len s

/-- `p = p ÷ b`, signed; a zero divisor raises `DivideByZero` (R82). -/
def dvsInto (w : Width) (p : Reg) (b : BitVec w.bits) (len : Nat) (s : State) : Result :=
  if b = 0#w.bits then raise .divideByZero s
  else writeResult w p (dvsResult (s.xr p w) b) (dvsFlags (s.xr p w) b) len s

/-- `p = -p`; no flag is written (R83). -/
def negate (w : Width) (p : Reg) (len : Nat) (s : State) : Result :=
  .next ((s.xw p w (0#w.bits - s.xr p w)).advance len)

/-- `add`, $07, word, format RR (R73). -/
def execAddWR (p q : Reg) (s : State) : Result := addInto .word p (s.xr q .word) 2 s

/-- `add`, $47, byte, format RR (R73). -/
def execAddBR (p q : Reg) (s : State) : Result := addInto .byte p (s.xr q .byte) 2 s

/-- `add`, $87, word, format RW (R73). -/
def execAddWI (p : Reg) (imm : Word) (s : State) : Result := addInto .word p imm 4 s

/-- `add`, $C7, byte, format RB (R73). -/
def execAddBI (p : Reg) (b : Byte) (s : State) : Result := addInto .byte p b 4 s

/-- `adq`, $09, word, format RN (R74). -/
def execAdqWU (p : Reg) (n : Nibble) (s : State) : Result := addInto .word p (quickU .word n) 2 s

/-- `adq`, $49, byte, format RN (R74). -/
def execAdqBU (p : Reg) (n : Nibble) (s : State) : Result := addInto .byte p (quickU .byte n) 2 s

/-- `adq`, $89, word, format RN (R74). -/
def execAdqWS (p : Reg) (n : Nibble) (s : State) : Result := addInto .word p (quickS .word n) 2 s

/-- `adq`, $C9, byte, format RN (R74). -/
def execAdqBS (p : Reg) (n : Nibble) (s : State) : Result := addInto .byte p (quickS .byte n) 2 s

/-- `ads`, $08, word, format RR (R75). -/
def execAdsWR (p q : Reg) (s : State) : Result := addInto .word p (s.xr q .word) 2 s

/-- `ads`, $48, byte, format RR (R75). -/
def execAdsBR (p q : Reg) (s : State) : Result := addInto .byte p (s.xr q .byte) 2 s

/-- `ads`, $88, word, format RW (R75). -/
def execAdsWI (p : Reg) (imm : Word) (s : State) : Result := addInto .word p imm 4 s

/-- `ads`, $C8, byte, format RB (R75). -/
def execAdsBI (p : Reg) (b : Byte) (s : State) : Result := addInto .byte p b 4 s

/-- `sub`, $0A, word, format RR (R76). -/
def execSubWR (p q : Reg) (s : State) : Result := subInto .word p (s.xr q .word) 2 s

/-- `sub`, $4A, byte, format RR (R76). -/
def execSubBR (p q : Reg) (s : State) : Result := subInto .byte p (s.xr q .byte) 2 s

/-- `sub`, $8A, word, format RW (R76). -/
def execSubWI (p : Reg) (imm : Word) (s : State) : Result := subInto .word p imm 4 s

/-- `sub`, $CA, byte, format RB (R76). -/
def execSubBI (p : Reg) (b : Byte) (s : State) : Result := subInto .byte p b 4 s

/-- `sbq`, $0C, word, format RN (R77). -/
def execSbqWU (p : Reg) (n : Nibble) (s : State) : Result := subInto .word p (quickU .word n) 2 s

/-- `sbq`, $4C, byte, format RN (R77). -/
def execSbqBU (p : Reg) (n : Nibble) (s : State) : Result := subInto .byte p (quickU .byte n) 2 s

/-- `sbq`, $8C, word, format RN (R77). -/
def execSbqWS (p : Reg) (n : Nibble) (s : State) : Result := subInto .word p (quickS .word n) 2 s

/-- `sbq`, $CC, byte, format RN (R77). -/
def execSbqBS (p : Reg) (n : Nibble) (s : State) : Result := subInto .byte p (quickS .byte n) 2 s

/-- `sbs`, $0B, word, format RR (R78). -/
def execSbsWR (p q : Reg) (s : State) : Result := subInto .word p (s.xr q .word) 2 s

/-- `sbs`, $4B, byte, format RR (R78). -/
def execSbsBR (p q : Reg) (s : State) : Result := subInto .byte p (s.xr q .byte) 2 s

/-- `sbs`, $8B, word, format RW (R78). -/
def execSbsWI (p : Reg) (imm : Word) (s : State) : Result := subInto .word p imm 4 s

/-- `sbs`, $CB, byte, format RB (R78). -/
def execSbsBI (p : Reg) (b : Byte) (s : State) : Result := subInto .byte p b 4 s

/-- `mul`, $0D, word, format RR (R79). -/
def execMulWR (p q : Reg) (s : State) : Result := mulInto .word p (s.xr q .word) 2 s

/-- `mul`, $4D, byte, format RR (R79). -/
def execMulBR (p q : Reg) (s : State) : Result := mulInto .byte p (s.xr q .byte) 2 s

/-- `mul`, $8D, word, format RW (R79). -/
def execMulWI (p : Reg) (imm : Word) (s : State) : Result := mulInto .word p imm 4 s

/-- `mul`, $CD, byte, format RB (R79). -/
def execMulBI (p : Reg) (b : Byte) (s : State) : Result := mulInto .byte p b 4 s

/-- `mls`, $0E, word, format RR (R80). -/
def execMlsWR (p q : Reg) (s : State) : Result := mlsInto .word p (s.xr q .word) 2 s

/-- `mls`, $4E, byte, format RR (R80). -/
def execMlsBR (p q : Reg) (s : State) : Result := mlsInto .byte p (s.xr q .byte) 2 s

/-- `mls`, $8E, word, format RW (R80). -/
def execMlsWI (p : Reg) (imm : Word) (s : State) : Result := mlsInto .word p imm 4 s

/-- `mls`, $CE, byte, format RB (R80). -/
def execMlsBI (p : Reg) (b : Byte) (s : State) : Result := mlsInto .byte p b 4 s

/-- `div`, $0F, word, format RR (R81). -/
def execDivWR (p q : Reg) (s : State) : Result := divInto .word p (s.xr q .word) 2 s

/-- `div`, $4F, byte, format RR (R81). -/
def execDivBR (p q : Reg) (s : State) : Result := divInto .byte p (s.xr q .byte) 2 s

/-- `div`, $8F, word, format RW (R81). -/
def execDivWI (p : Reg) (imm : Word) (s : State) : Result := divInto .word p imm 4 s

/-- `div`, $CF, byte, format RB (R81). -/
def execDivBI (p : Reg) (b : Byte) (s : State) : Result := divInto .byte p b 4 s

/-- `dvs`, $10, word, format RR (R82). -/
def execDvsWR (p q : Reg) (s : State) : Result := dvsInto .word p (s.xr q .word) 2 s

/-- `dvs`, $50, byte, format RR (R82). -/
def execDvsBR (p q : Reg) (s : State) : Result := dvsInto .byte p (s.xr q .byte) 2 s

/-- `dvs`, $90, word, format RW (R82). -/
def execDvsWI (p : Reg) (imm : Word) (s : State) : Result := dvsInto .word p imm 4 s

/-- `dvs`, $D0, byte, format RB (R82). -/
def execDvsBI (p : Reg) (b : Byte) (s : State) : Result := dvsInto .byte p b 4 s

/-- `neg`, $94, word, format R (R83). -/
def execNegW (p : Reg) (s : State) : Result := negate .word p 2 s

/-- `neg`, $D4, byte, format R (R83). -/
def execNegB (p : Reg) (s : State) : Result := negate .byte p 2 s

end Sys2Proof.Machine
end

