-- ==== Sys2Proof/Machine/Branch.lean ====
section
/-! DEFINITION. The branch instructions (44_branch.md, R132 to R153). A condition is the source's "Branch if:" table,
transcribed cell by cell (R133), read literally where it does not say what its title says (R135 to R137, C7, U6, log 7). -/

namespace Sys2Proof.Machine

/-- One row of a "Branch if:" table: for each flag, `T`, `F` or an empty cell (R133). -/
structure CondRow where
  n : Option Bool
  v : Option Bool
  z : Option Bool
  c : Option Bool
deriving DecidableEq, Repr

/-- What a cell requires of its flag: an empty cell requires nothing (R133). -/
def cellHolds (cell : Option Bool) (flag : Bool) : Bool :=
  match cell with
  | none => true
  | some b => flag == b

/-- A row is the conjunction of its cells (R133). -/
def rowHolds (r : CondRow) (f : Flags) : Bool :=
  cellHolds r.n f.n && cellHolds r.v f.v && cellHolds r.z f.z && cellHolds r.c f.c

/-- The branch is taken when at least one row holds (R133). -/
def condHolds (table : List CondRow) (f : Flags) : Bool := table.any fun r => rowHolds r f

/-- A conditional branch of `len` bytes; its only effect is on `pc` (R132, R133, R152). -/
def branchIf (table : List CondRow) (target : Word) (len : Nat) (s : State) : Result :=
  if condHolds table s.flags then .next (s.setPc target) else .next (s.advance len)

/-- `bra`: always taken (R145). -/
def jumpTo (target : Word) (s : State) : Result := .next (s.setPc target)

/-- The table of `beq` (R134). -/
def condBeq : List CondRow :=
  [⟨none, none, some true, none⟩]

/-- The table of `bfe` (R135). -/
def condBfe : List CondRow :=
  [⟨none, none, some true, none⟩,
   ⟨none, none, some true, some true⟩]

/-- The table of `bft` (R136). -/
def condBft : List CondRow :=
  [⟨none, none, some true, some true⟩]

/-- The table of `bge` (R137). -/
def condBge : List CondRow :=
  [⟨some true, none, none, none⟩,
   ⟨none, some true, none, none⟩,
   ⟨some false, some false, none, none⟩]

/-- The table of `bgt` (R138). -/
def condBgt : List CondRow :=
  [⟨some true, some true, some false, none⟩,
   ⟨some false, some false, some false, none⟩]

/-- The table of `ble` (R139). -/
def condBle : List CondRow :=
  [⟨none, none, some true, none⟩,
   ⟨some true, some false, none, none⟩,
   ⟨some false, some true, none, none⟩]

/-- The table of `blt` (R140). -/
def condBlt : List CondRow :=
  [⟨some true, some false, none, none⟩,
   ⟨some false, some true, none, none⟩]

/-- The table of `bme` (R141). -/
def condBme : List CondRow :=
  [⟨none, none, some true, none⟩,
   ⟨none, none, some false, some false⟩]

/-- The table of `bmt` (R142). -/
def condBmt : List CondRow :=
  [⟨none, none, some false, some false⟩]

/-- The table of `bne` (R143). -/
def condBne : List CondRow :=
  [⟨none, none, some false, none⟩]

/-- The table of `bnz` (R144). -/
def condBnz : List CondRow :=
  [⟨none, none, some false, none⟩]

/-- The table of `brc` (R146). -/
def condBrc : List CondRow :=
  [⟨none, none, none, some true⟩]

/-- The table of `brn` (R147). -/
def condBrn : List CondRow :=
  [⟨some true, none, none, none⟩]

/-- The table of `bro` (R148). -/
def condBro : List CondRow :=
  [⟨none, some true, none, none⟩]

/-- The table of `brp` (R149). -/
def condBrp : List CondRow :=
  [⟨some false, none, none, none⟩]

/-- The table of `brz` (R150). -/
def condBrz : List CondRow :=
  [⟨none, none, some true, none⟩]

/-- `beq`, $1C, no width, format W (R134). -/
def execBeqL (imm : Word) (s : State) : Result := branchIf condBeq (s.relLong imm) 4 s

/-- `beq`, $5C, no width, format B (R134). -/
def execBeqS (b : Byte) (s : State) : Result := branchIf condBeq (s.relShort b) 2 s

/-- `bfe`, $A0, no width, format W (R135). -/
def execBfeL (imm : Word) (s : State) : Result := branchIf condBfe (s.relLong imm) 4 s

/-- `bfe`, $E0, no width, format B (R135). -/
def execBfeS (b : Byte) (s : State) : Result := branchIf condBfe (s.relShort b) 2 s

/-- `bft`, $9E, no width, format W (R136). -/
def execBftL (imm : Word) (s : State) : Result := branchIf condBft (s.relLong imm) 4 s

/-- `bft`, $DE, no width, format B (R136). -/
def execBftS (b : Byte) (s : State) : Result := branchIf condBft (s.relShort b) 2 s

/-- `bge`, $1F, no width, format W (R137). -/
def execBgeL (imm : Word) (s : State) : Result := branchIf condBge (s.relLong imm) 4 s

/-- `bge`, $5F, no width, format B (R137). -/
def execBgeS (b : Byte) (s : State) : Result := branchIf condBge (s.relShort b) 2 s

/-- `bgt`, $1D, no width, format W (R138). -/
def execBgtL (imm : Word) (s : State) : Result := branchIf condBgt (s.relLong imm) 4 s

/-- `bgt`, $5D, no width, format B (R138). -/
def execBgtS (b : Byte) (s : State) : Result := branchIf condBgt (s.relShort b) 2 s

/-- `ble`, $9F, no width, format W (R139). -/
def execBleL (imm : Word) (s : State) : Result := branchIf condBle (s.relLong imm) 4 s

/-- `ble`, $DF, no width, format B (R139). -/
def execBleS (b : Byte) (s : State) : Result := branchIf condBle (s.relShort b) 2 s

/-- `blt`, $9D, no width, format W (R140). -/
def execBltL (imm : Word) (s : State) : Result := branchIf condBlt (s.relLong imm) 4 s

/-- `blt`, $DD, no width, format B (R140). -/
def execBltS (b : Byte) (s : State) : Result := branchIf condBlt (s.relShort b) 2 s

/-- `bme`, $20, no width, format W (R141). -/
def execBmeL (imm : Word) (s : State) : Result := branchIf condBme (s.relLong imm) 4 s

/-- `bme`, $60, no width, format B (R141). -/
def execBmeS (b : Byte) (s : State) : Result := branchIf condBme (s.relShort b) 2 s

/-- `bmt`, $1E, no width, format W (R142). -/
def execBmtL (imm : Word) (s : State) : Result := branchIf condBmt (s.relLong imm) 4 s

/-- `bmt`, $5E, no width, format B (R142). -/
def execBmtS (b : Byte) (s : State) : Result := branchIf condBmt (s.relShort b) 2 s

/-- `bne`, $9C, no width, format W (R143). -/
def execBneL (imm : Word) (s : State) : Result := branchIf condBne (s.relLong imm) 4 s

/-- `bne`, $DC, no width, format B (R143). -/
def execBneS (b : Byte) (s : State) : Result := branchIf condBne (s.relShort b) 2 s

/-- `bnz`, $A1, no width, format W (R144). -/
def execBnzL (imm : Word) (s : State) : Result := branchIf condBnz (s.relLong imm) 4 s

/-- `bnz`, $E1, no width, format B (R144). -/
def execBnzS (b : Byte) (s : State) : Result := branchIf condBnz (s.relShort b) 2 s

/-- `bra`, $18, no width, format Z (R145). -/
def execBraR (s : State) : Result := jumpTo s.relReg s

/-- `bra`, $58, no width, format W (R145). -/
def execBraL (imm : Word) (s : State) : Result := jumpTo (s.relLong imm) s

/-- `bra`, $98, no width, format B (R145). -/
def execBraS (b : Byte) (s : State) : Result := jumpTo (s.relShort b) s

/-- `brc`, $22, no width, format W (R146). -/
def execBrcL (imm : Word) (s : State) : Result := branchIf condBrc (s.relLong imm) 4 s

/-- `brc`, $62, no width, format B (R146). -/
def execBrcS (b : Byte) (s : State) : Result := branchIf condBrc (s.relShort b) 2 s

/-- `brn`, $A3, no width, format W (R147). -/
def execBrnL (imm : Word) (s : State) : Result := branchIf condBrn (s.relLong imm) 4 s

/-- `brn`, $E3, no width, format B (R147). -/
def execBrnS (b : Byte) (s : State) : Result := branchIf condBrn (s.relShort b) 2 s

/-- `bro`, $A2, no width, format W (R148). -/
def execBroL (imm : Word) (s : State) : Result := branchIf condBro (s.relLong imm) 4 s

/-- `bro`, $E2, no width, format B (R148). -/
def execBroS (b : Byte) (s : State) : Result := branchIf condBro (s.relShort b) 2 s

/-- `brp`, $23, no width, format W (R149). -/
def execBrpL (imm : Word) (s : State) : Result := branchIf condBrp (s.relLong imm) 4 s

/-- `brp`, $63, no width, format B (R149). -/
def execBrpS (b : Byte) (s : State) : Result := branchIf condBrp (s.relShort b) 2 s

/-- `brz`, $21, no width, format W (R150). -/
def execBrzL (imm : Word) (s : State) : Result := branchIf condBrz (s.relLong imm) 4 s

/-- `brz`, $61, no width, format B (R150). -/
def execBrzS (b : Byte) (s : State) : Result := branchIf condBrz (s.relShort b) 2 s

end Sys2Proof.Machine
end

