-- ==== Sys2Proof/Machine/Compare.lean ====
section
/-! DEFINITION. The compare instructions (43_compare.md, R125 to R128). -/

namespace Sys2Proof.Machine

/-- `cmp`: the flags of `p - b`, the difference discarded (R125). -/
def compareWith (w : Width) (p : Reg) (b : BitVec w.bits) (len : Nat) (s : State) : Result :=
  .next ((s.setFlags (subFlags (s.xr p w) b)).advance len)

/-- `dcp`: the decremented `p` is written first and the second operand is read after that write (R126, R13). -/
def decreaseCompare (w : Width) (p : Reg) (operand : State → BitVec w.bits) (len : Nat) (s : State) : Result :=
  let a := s.xr p w - 1#w.bits
  let t := s.xw p w a
  .next ((t.setFlags (subFlags a (operand t))).advance len)

/-- `zcp`: Z alone is written (R127). -/
def zeroCompare (w : Width) (p : Reg) (len : Nat) (s : State) : Result :=
  .next ((s.setFlags { s.flags with z := decide (s.xr p w = 0#w.bits) }).advance len)

/-- `cmp`, $19, word, format RR (R125). -/
def execCmpWR (p q : Reg) (s : State) : Result := compareWith .word p (s.xr q .word) 2 s

/-- `cmp`, $1A, word, format RN (R125). -/
def execCmpWQ (p : Reg) (n : Nibble) (s : State) : Result := compareWith .word p (quickU .word n) 2 s

/-- `cmp`, $59, byte, format RR (R125). -/
def execCmpBR (p q : Reg) (s : State) : Result := compareWith .byte p (s.xr q .byte) 2 s

/-- `cmp`, $5A, byte, format RN (R125). -/
def execCmpBQ (p : Reg) (n : Nibble) (s : State) : Result := compareWith .byte p (quickU .byte n) 2 s

/-- `cmp`, $99, word, format RW (R125). -/
def execCmpWI (p : Reg) (imm : Word) (s : State) : Result := compareWith .word p imm 4 s

/-- `cmp`, $D9, byte, format RB (R125). -/
def execCmpBI (p : Reg) (b : Byte) (s : State) : Result := compareWith .byte p b 4 s

/-- `dcp`, $1B, word, format RW (R126). -/
def execDcpWI (p : Reg) (imm : Word) (s : State) : Result := decreaseCompare .word p (fun _ => imm) 4 s

/-- `dcp`, $5B, byte, format RB (R126). -/
def execDcpBI (p : Reg) (b : Byte) (s : State) : Result := decreaseCompare .byte p (fun _ => b) 4 s

/-- `dcp`, $9B, word, format RR (R126). -/
def execDcpWR (p q : Reg) (s : State) : Result := decreaseCompare .word p (fun t => t.xr q .word) 2 s

/-- `dcp`, $DB, byte, format RR (R126). -/
def execDcpBR (p q : Reg) (s : State) : Result := decreaseCompare .byte p (fun t => t.xr q .byte) 2 s

/-- `zcp`, $9A, word, format R (R127). -/
def execZcpW (p : Reg) (s : State) : Result := zeroCompare .word p 2 s

/-- `zcp`, $DA, byte, format R (R127). -/
def execZcpB (p : Reg) (s : State) : Result := zeroCompare .byte p 2 s

end Sys2Proof.Machine
end

