-- ==== Sys2Proof/Machine/DataMove.lean ====
section
/-! DEFINITION. The data movement instructions (42_data_move.md, R105 to R117). -/

namespace Sys2Proof.Machine

/-- `cpy` (R105). -/
def copyReg (w : Width) (p q : Reg) (len : Nat) (s : State) : Result :=
  .next (((s.xw p w (s.xr q w)).setFlags (logicFlags (s.xr q w))).advance len)

/-- `clr` (R106). -/
def clearReg (w : Width) (p : Reg) (len : Nat) (s : State) : Result :=
  .next (((s.xw p w 0#w.bits).setFlags { n := false, v := false, z := true, c := false }).advance len)

/-- `stq`: Z from the value; N, V and C are three free values, drawn in that order (R107, R17, log 5). -/
def setQuick (w : Width) (p : Reg) (n : Nibble) (len : Nat) (s : State) : Result :=
  let f : Flags :=
    { n := Config.freeBit s.draws, v := Config.freeBit (s.draws + 1), z := decide (quickU w n = 0#w.bits),
      c := Config.freeBit (s.draws + 2) }
  .next ((((s.xw p w (quickU w n)).setFlags f).setDraws (s.draws + 3)).advance len)

/-- `exc`: both registers are read before either is written (R108, R13). -/
def exchange (w : Width) (p q : Reg) (len : Nat) (s : State) : Result :=
  let a := s.xr p w
  let b := s.xr q w
  .next ((((s.xw p w b).xw q w a).setFlags { n := false, v := false, z := false, c := false }).advance len)

/-- `l`: N and Z from the loaded value, V and C unchanged (R109). -/
def loadReg (w : Width) (p : Reg) (addr : Word) (len : Nat) (s : State) : Result :=
  let v := s.mem.readAt w addr
  .next (((s.xw p w v).setFlags (setNZ v s.flags)).advance len)

/-- `s` (R110). -/
def storeReg (w : Width) (addr : Word) (q : Reg) (len : Nat) (s : State) : Result :=
  .next ((s.setMem (s.mem.writeAt w addr (s.xr q w))).advance len)

/-- `psh` (R111, R117). -/
def push (w : Width) (v : BitVec w.bits) (len : Nat) (s : State) : Result := .next ((s.pushData w v).advance len)

/-- `pop`: N and Z from the popped value, V and C unchanged (R112, R117). -/
def popInto (w : Width) (p : Reg) (len : Nat) (s : State) : Result :=
  let v := s.mem.readAt w s.sp
  .next ((((s.setSp (s.sp + BitVec.ofNat 16 w.bytes)).xw p w v).setFlags (setNZ v s.flags)).advance len)

/-- `cpy`, $04, word, format RR (R105). -/
def execCpyW (p q : Reg) (s : State) : Result := copyReg .word p q 2 s

/-- `cpy`, $44, byte, format RR (R105). -/
def execCpyB (p q : Reg) (s : State) : Result := copyReg .byte p q 2 s

/-- `clr`, $84, word, format R (R106). -/
def execClrW (p : Reg) (s : State) : Result := clearReg .word p 2 s

/-- `clr`, $C4, byte, format R (R106). -/
def execClrB (p : Reg) (s : State) : Result := clearReg .byte p 2 s

/-- `stq`, $06, word, format RN (R107). -/
def execStqW (p : Reg) (n : Nibble) (s : State) : Result := setQuick .word p n 2 s

/-- `stq`, $46, byte, format RN (R107). -/
def execStqB (p : Reg) (n : Nibble) (s : State) : Result := setQuick .byte p n 2 s

/-- `exc`, $05, word, format RR (R108). -/
def execExcW (p q : Reg) (s : State) : Result := exchange .word p q 2 s

/-- `exc`, $45, byte, format RR (R108). -/
def execExcB (p q : Reg) (s : State) : Result := exchange .byte p q 2 s

/-- `l`, $02, word, format RR (R109). -/
def execLWR (p q : Reg) (s : State) : Result := loadReg .word p (s.x q) 2 s

/-- `l`, $42, word, format RW (R109). -/
def execLWA (p : Reg) (imm : Word) (s : State) : Result := loadReg .word p imm 4 s

/-- `l`, $82, byte, format RR (R109). -/
def execLBR (p q : Reg) (s : State) : Result := loadReg .byte p (s.x q) 2 s

/-- `l`, $C2, byte, format RW (R109). -/
def execLBA (p : Reg) (imm : Word) (s : State) : Result := loadReg .byte p imm 4 s

/-- `s`, $03, word, format RR (R110). -/
def execSWR (p q : Reg) (s : State) : Result := storeReg .word (s.x p) q 2 s

/-- `s`, $43, word, format QW (R110). -/
def execSWA (imm : Word) (q : Reg) (s : State) : Result := storeReg .word imm q 4 s

/-- `s`, $83, byte, format RR (R110). -/
def execSBR (p q : Reg) (s : State) : Result := storeReg .byte (s.x p) q 2 s

/-- `s`, $C3, byte, format QW (R110). -/
def execSBA (imm : Word) (q : Reg) (s : State) : Result := storeReg .byte imm q 4 s

/-- `psh`, $00, word, format R (R111). -/
def execPshWR (p : Reg) (s : State) : Result := push .word (s.xr p .word) 2 s

/-- `psh`, $40, byte, format R (R111). -/
def execPshBR (p : Reg) (s : State) : Result := push .byte (s.xr p .byte) 2 s

/-- `psh`, $80, word, format W (R111). -/
def execPshWI (imm : Word) (s : State) : Result := push .word imm 4 s

/-- `psh`, $C0, byte, format B (R111). -/
def execPshBI (b : Byte) (s : State) : Result := push .byte b 2 s

/-- `pop`, $01, word, format R (R112). -/
def execPopW (p : Reg) (s : State) : Result := popInto .word p 2 s

/-- `pop`, $41, byte, format R (R112). -/
def execPopB (p : Reg) (s : State) : Result := popInto .byte p 2 s

/-- `tsr`, $24, no width, format R (R113). -/
def execTsr (p : Reg) (s : State) : Result := .next ((s.setX p s.sp).advance 2)

/-- `trs`, $64, no width, format R (R114). -/
def execTrs (p : Reg) (s : State) : Result := .next ((s.setSp (s.x p)).advance 2)

/-- `tpr`, $A4, no width, format R (R115). -/
def execTpr (p : Reg) (s : State) : Result := .next ((s.setX p s.pcs).advance 2)

/-- `trp`, $E4, no width, format R (R116). -/
def execTrp (p : Reg) (s : State) : Result := .next ((s.setPcs (s.x p)).advance 2)

end Sys2Proof.Machine
end

