-- ==== Sys2Proof/Machine/Jump.lean ====
section
/-! DEFINITION. Jump, call and return (45_jump_call.md, R160 to R163). -/

namespace Sys2Proof.Machine

/-- `jmp`: the target is the operand itself, not a word in memory at it (R160). -/
def jumpAbsolute (target : Word) (s : State) : Result := .next (s.setPc target)

/-- `jsr`: the next instruction's address goes to the PC Stack, then `pc` to the target (R161). -/
def callTo (target : Word) (len : Nat) (s : State) : Result := .next ((s.pushPc (s.pcNext len)).setPc target)

/-- `jmp`, $17, no width, format R (R160). -/
def execJmpR (p : Reg) (s : State) : Result := jumpAbsolute (s.x p) s

/-- `jmp`, $57, no width, format W (R160). -/
def execJmpA (imm : Word) (s : State) : Result := jumpAbsolute imm s

/-- `jsr`, $97, no width, format R (R161). -/
def execJsrR (p : Reg) (s : State) : Result := callTo (s.x p) 2 s

/-- `jsr`, $D7, no width, format W (R161). -/
def execJsrA (imm : Word) (s : State) : Result := callTo imm 4 s

/-- `ret`, $D8, no width, format Z (R162). -/
def execRet (s : State) : Result := .next s.popPc

end Sys2Proof.Machine
end

