-- ==== Sys2Proof/Machine/Logic.lean ====
section
/-! DEFINITION. The logic, shift, rotate and swap instructions (41_logic_shift.md, R90 to R99). -/

namespace Sys2Proof.Machine

/-- A bitwise result written to register `p`: N and Z from it, V and C cleared (R99). -/
def writeLogic (w : Width) (p : Reg) (r : BitVec w.bits) (len : Nat) (s : State) : Result :=
  .next (((s.xw p w r).setFlags (logicFlags r)).advance len)

/-- `p = p ∧ b` (R90). -/
def andInto (w : Width) (p : Reg) (b : BitVec w.bits) (len : Nat) (s : State) : Result :=
  writeLogic w p (s.xr p w &&& b) len s

/-- `p = p ∨ b` (R91). -/
def orInto (w : Width) (p : Reg) (b : BitVec w.bits) (len : Nat) (s : State) : Result :=
  writeLogic w p (s.xr p w ||| b) len s

/-- `p = p ⊕ b` (R92). -/
def xorInto (w : Width) (p : Reg) (b : BitVec w.bits) (len : Nat) (s : State) : Result :=
  writeLogic w p (s.xr p w ^^^ b) len s

/-- `p = ¬p` (R93). -/
def invert (w : Width) (p : Reg) (len : Nat) (s : State) : Result := writeLogic w p (~~~ s.xr p w) len s

/-- A shift's result written to register `p`; of the flags C alone is written (R94, R95). -/
def writeShift (w : Width) (p : Reg) (r : BitVec w.bits) (carry : Bool) (len : Nat) (s : State) : Result :=
  .next (((s.xw p w r).setFlags { s.flags with c := carry }).advance len)

/-- `shl` by the count in a 4-bit field (R94). -/
def shiftLeft (w : Width) (p : Reg) (n : Nibble) (len : Nat) (s : State) : Result :=
  writeShift w p (shlResult (s.xr p w) n.toNat) (shlCarry (s.xr p w) n.toNat) len s

/-- `shr` by the count in a 4-bit field: a logical shift (R95). -/
def shiftRight (w : Width) (p : Reg) (n : Nibble) (len : Nat) (s : State) : Result :=
  writeShift w p (shrResult (s.xr p w) n.toNat) (shrCarry (s.xr p w) n.toNat) len s

/-- A result written to register `p` by an instruction that writes no flag (R96 to R98). -/
def writeQuietly (w : Width) (p : Reg) (r : BitVec w.bits) (len : Nat) (s : State) : Result :=
  .next ((s.xw p w r).advance len)

/-- `rol` by the count in a 4-bit field (R96). -/
def rollLeft (w : Width) (p : Reg) (n : Nibble) (len : Nat) (s : State) : Result :=
  writeQuietly w p (rolResult (s.xr p w) n.toNat) len s

/-- `ror` by the count in a 4-bit field (R97). -/
def rollRight (w : Width) (p : Reg) (n : Nibble) (len : Nat) (s : State) : Result :=
  writeQuietly w p (rorResult (s.xr p w) n.toNat) len s

/-- `swp` (R98). -/
def swapHalves (w : Width) (p : Reg) (len : Nat) (s : State) : Result :=
  writeQuietly w p (swpResult (s.xr p w)) len s

/-- `and`, $11, word, format RR (R90). -/
def execAndWR (p q : Reg) (s : State) : Result := andInto .word p (s.xr q .word) 2 s

/-- `and`, $51, byte, format RR (R90). -/
def execAndBR (p q : Reg) (s : State) : Result := andInto .byte p (s.xr q .byte) 2 s

/-- `and`, $91, word, format RW (R90). -/
def execAndWI (p : Reg) (imm : Word) (s : State) : Result := andInto .word p imm 4 s

/-- `and`, $D1, byte, format RB (R90). -/
def execAndBI (p : Reg) (b : Byte) (s : State) : Result := andInto .byte p b 4 s

/-- `or`, $12, word, format RR (R91). -/
def execOrWR (p q : Reg) (s : State) : Result := orInto .word p (s.xr q .word) 2 s

/-- `or`, $52, byte, format RR (R91). -/
def execOrBR (p q : Reg) (s : State) : Result := orInto .byte p (s.xr q .byte) 2 s

/-- `or`, $92, word, format RW (R91). -/
def execOrWI (p : Reg) (imm : Word) (s : State) : Result := orInto .word p imm 4 s

/-- `or`, $D2, byte, format RB (R91). -/
def execOrBI (p : Reg) (b : Byte) (s : State) : Result := orInto .byte p b 4 s

/-- `xor`, $13, word, format RR (R92). -/
def execXorWR (p q : Reg) (s : State) : Result := xorInto .word p (s.xr q .word) 2 s

/-- `xor`, $53, byte, format RR (R92). -/
def execXorBR (p q : Reg) (s : State) : Result := xorInto .byte p (s.xr q .byte) 2 s

/-- `xor`, $93, word, format RW (R92). -/
def execXorWI (p : Reg) (imm : Word) (s : State) : Result := xorInto .word p imm 4 s

/-- `xor`, $D3, byte, format RB (R92). -/
def execXorBI (p : Reg) (b : Byte) (s : State) : Result := xorInto .byte p b 4 s

/-- `not`, $14, word, format R (R93). -/
def execNotW (p : Reg) (s : State) : Result := invert .word p 2 s

/-- `not`, $54, byte, format R (R93). -/
def execNotB (p : Reg) (s : State) : Result := invert .byte p 2 s

/-- `shl`, $15, word, format RN (R94). -/
def execShlW (p : Reg) (n : Nibble) (s : State) : Result := shiftLeft .word p n 2 s

/-- `shl`, $55, byte, format RN (R94). -/
def execShlB (p : Reg) (n : Nibble) (s : State) : Result := shiftLeft .byte p n 2 s

/-- `shr`, $95, word, format RN (R95). -/
def execShrW (p : Reg) (n : Nibble) (s : State) : Result := shiftRight .word p n 2 s

/-- `shr`, $D5, byte, format RN (R95). -/
def execShrB (p : Reg) (n : Nibble) (s : State) : Result := shiftRight .byte p n 2 s

/-- `rol`, $16, word, format RN (R96). -/
def execRolW (p : Reg) (n : Nibble) (s : State) : Result := rollLeft .word p n 2 s

/-- `rol`, $56, byte, format RN (R96). -/
def execRolB (p : Reg) (n : Nibble) (s : State) : Result := rollLeft .byte p n 2 s

/-- `ror`, $96, word, format RN (R97). -/
def execRorW (p : Reg) (n : Nibble) (s : State) : Result := rollRight .word p n 2 s

/-- `ror`, $D6, byte, format RN (R97). -/
def execRorB (p : Reg) (n : Nibble) (s : State) : Result := rollRight .byte p n 2 s

/-- `swp`, $85, word, format R (R98). -/
def execSwpW (p : Reg) (s : State) : Result := swapHalves .word p 2 s

/-- `swp`, $C5, byte, format R (R98). -/
def execSwpB (p : Reg) (s : State) : Result := swapHalves .byte p 2 s

end Sys2Proof.Machine
end

