-- ==== Sys2Proof/Machine/System.lean ====
section
/-! DEFINITION. The system instructions (46_system.md, R167 to R170; 60_exceptions.md, R184 to R189). -/

namespace Sys2Proof.Machine

/-- The four flags cleared, as `ent` and `lve` leave them (R167, R168). -/
def clearedFlags : Flags := { n := false, v := false, z := false, c := false }

/-- `ent`: denied in Protected Mode; otherwise enters it, clears the flags and calls the 'enter protection' interrupt
(R167, R186, R188). -/
def enterProtected (len : Nat) (s : State) : Result :=
  if s.prot then raise .protectionViolation s
  else .next (((s.setProt true).setFlags clearedFlags).callInterrupt Config.enterProtVector len)

/-- `lve`: in either mode, leaves Protected Mode, clears the flags and calls the 'leave protection' interrupt (R168,
R188). -/
def leaveProtected (len : Nat) (s : State) : Result :=
  .next (((s.setProt false).setFlags clearedFlags).callInterrupt Config.leaveProtVector len)

/-- `io`: denied in Protected Mode; a field value above 3 is an illegal instruction; otherwise the two low bits go to the
pins (R169, R182). -/
def drivePins (n : Nibble) (len : Nat) (s : State) : Result :=
  if s.prot then raise .protectionViolation s
  else if 3 < n.toNat then raise .illegalInstruction s
  else .next ((s.setIopins (n.extractLsb' 0 2)).advance len)

/-- `ent`, $65, no width, format Z (R167). -/
def execEnt (s : State) : Result := enterProtected 2 s

/-- `lve`, $A5, no width, format Z (R168). -/
def execLve (s : State) : Result := leaveProtected 2 s

/-- `io`, $E5, no width, format N (R169). -/
def execIo (n : Nibble) (s : State) : Result := drivePins n 2 s

/-- `rti`, $25, no width, format Z (R170). -/
def execRti (s : State) : Result := .next s.returnFromInterrupt

end Sys2Proof.Machine
end

