-- ==== Sys2Proof/Machine/Dispatch.lean ====
section
/-! DEFINITION. `exec`: one arm for each constructor of `Instr`, each one direct call of that instruction's meaning (R23
step 7 of 10_state.md). -/

namespace Sys2Proof.Machine

def exec (i : Instr) (s : State) : Host.Outcome State Fault Refusal :=
  match i with
  -- arithmetic
  | .addWR p q => Sys2Proof.Machine.execAddWR p q s
  | .addBR p q => Sys2Proof.Machine.execAddBR p q s
  | .addWI p imm => Sys2Proof.Machine.execAddWI p imm s
  | .addBI p b => Sys2Proof.Machine.execAddBI p b s
  | .adqWU p n => Sys2Proof.Machine.execAdqWU p n s
  | .adqBU p n => Sys2Proof.Machine.execAdqBU p n s
  | .adqWS p n => Sys2Proof.Machine.execAdqWS p n s
  | .adqBS p n => Sys2Proof.Machine.execAdqBS p n s
  | .adsWR p q => Sys2Proof.Machine.execAdsWR p q s
  | .adsBR p q => Sys2Proof.Machine.execAdsBR p q s
  | .adsWI p imm => Sys2Proof.Machine.execAdsWI p imm s
  | .adsBI p b => Sys2Proof.Machine.execAdsBI p b s
  | .subWR p q => Sys2Proof.Machine.execSubWR p q s
  | .subBR p q => Sys2Proof.Machine.execSubBR p q s
  | .subWI p imm => Sys2Proof.Machine.execSubWI p imm s
  | .subBI p b => Sys2Proof.Machine.execSubBI p b s
  | .sbqWU p n => Sys2Proof.Machine.execSbqWU p n s
  | .sbqBU p n => Sys2Proof.Machine.execSbqBU p n s
  | .sbqWS p n => Sys2Proof.Machine.execSbqWS p n s
  | .sbqBS p n => Sys2Proof.Machine.execSbqBS p n s
  | .sbsWR p q => Sys2Proof.Machine.execSbsWR p q s
  | .sbsBR p q => Sys2Proof.Machine.execSbsBR p q s
  | .sbsWI p imm => Sys2Proof.Machine.execSbsWI p imm s
  | .sbsBI p b => Sys2Proof.Machine.execSbsBI p b s
  | .mulWR p q => Sys2Proof.Machine.execMulWR p q s
  | .mulBR p q => Sys2Proof.Machine.execMulBR p q s
  | .mulWI p imm => Sys2Proof.Machine.execMulWI p imm s
  | .mulBI p b => Sys2Proof.Machine.execMulBI p b s
  | .mlsWR p q => Sys2Proof.Machine.execMlsWR p q s
  | .mlsBR p q => Sys2Proof.Machine.execMlsBR p q s
  | .mlsWI p imm => Sys2Proof.Machine.execMlsWI p imm s
  | .mlsBI p b => Sys2Proof.Machine.execMlsBI p b s
  | .divWR p q => Sys2Proof.Machine.execDivWR p q s
  | .divBR p q => Sys2Proof.Machine.execDivBR p q s
  | .divWI p imm => Sys2Proof.Machine.execDivWI p imm s
  | .divBI p b => Sys2Proof.Machine.execDivBI p b s
  | .dvsWR p q => Sys2Proof.Machine.execDvsWR p q s
  | .dvsBR p q => Sys2Proof.Machine.execDvsBR p q s
  | .dvsWI p imm => Sys2Proof.Machine.execDvsWI p imm s
  | .dvsBI p b => Sys2Proof.Machine.execDvsBI p b s
  | .negW p => Sys2Proof.Machine.execNegW p s
  | .negB p => Sys2Proof.Machine.execNegB p s
  -- logic, shifts, rotates, swap
  | .andWR p q => Sys2Proof.Machine.execAndWR p q s
  | .andBR p q => Sys2Proof.Machine.execAndBR p q s
  | .andWI p imm => Sys2Proof.Machine.execAndWI p imm s
  | .andBI p b => Sys2Proof.Machine.execAndBI p b s
  | .orWR p q => Sys2Proof.Machine.execOrWR p q s
  | .orBR p q => Sys2Proof.Machine.execOrBR p q s
  | .orWI p imm => Sys2Proof.Machine.execOrWI p imm s
  | .orBI p b => Sys2Proof.Machine.execOrBI p b s
  | .xorWR p q => Sys2Proof.Machine.execXorWR p q s
  | .xorBR p q => Sys2Proof.Machine.execXorBR p q s
  | .xorWI p imm => Sys2Proof.Machine.execXorWI p imm s
  | .xorBI p b => Sys2Proof.Machine.execXorBI p b s
  | .notW p => Sys2Proof.Machine.execNotW p s
  | .notB p => Sys2Proof.Machine.execNotB p s
  | .shlW p n => Sys2Proof.Machine.execShlW p n s
  | .shlB p n => Sys2Proof.Machine.execShlB p n s
  | .shrW p n => Sys2Proof.Machine.execShrW p n s
  | .shrB p n => Sys2Proof.Machine.execShrB p n s
  | .rolW p n => Sys2Proof.Machine.execRolW p n s
  | .rolB p n => Sys2Proof.Machine.execRolB p n s
  | .rorW p n => Sys2Proof.Machine.execRorW p n s
  | .rorB p n => Sys2Proof.Machine.execRorB p n s
  | .swpW p => Sys2Proof.Machine.execSwpW p s
  | .swpB p => Sys2Proof.Machine.execSwpB p s
  -- data movement
  | .cpyW p q => Sys2Proof.Machine.execCpyW p q s
  | .cpyB p q => Sys2Proof.Machine.execCpyB p q s
  | .clrW p => Sys2Proof.Machine.execClrW p s
  | .clrB p => Sys2Proof.Machine.execClrB p s
  | .stqW p n => Sys2Proof.Machine.execStqW p n s
  | .stqB p n => Sys2Proof.Machine.execStqB p n s
  | .excW p q => Sys2Proof.Machine.execExcW p q s
  | .excB p q => Sys2Proof.Machine.execExcB p q s
  | .lWR p q => Sys2Proof.Machine.execLWR p q s
  | .lWA p imm => Sys2Proof.Machine.execLWA p imm s
  | .lBR p q => Sys2Proof.Machine.execLBR p q s
  | .lBA p imm => Sys2Proof.Machine.execLBA p imm s
  | .sWR p q => Sys2Proof.Machine.execSWR p q s
  | .sWA imm q => Sys2Proof.Machine.execSWA imm q s
  | .sBR p q => Sys2Proof.Machine.execSBR p q s
  | .sBA imm q => Sys2Proof.Machine.execSBA imm q s
  | .pshWR p => Sys2Proof.Machine.execPshWR p s
  | .pshBR p => Sys2Proof.Machine.execPshBR p s
  | .pshWI imm => Sys2Proof.Machine.execPshWI imm s
  | .pshBI b => Sys2Proof.Machine.execPshBI b s
  | .popW p => Sys2Proof.Machine.execPopW p s
  | .popB p => Sys2Proof.Machine.execPopB p s
  | .tsr p => Sys2Proof.Machine.execTsr p s
  | .trs p => Sys2Proof.Machine.execTrs p s
  | .tpr p => Sys2Proof.Machine.execTpr p s
  | .trp p => Sys2Proof.Machine.execTrp p s
  -- compare
  | .cmpWR p q => Sys2Proof.Machine.execCmpWR p q s
  | .cmpWQ p n => Sys2Proof.Machine.execCmpWQ p n s
  | .cmpBR p q => Sys2Proof.Machine.execCmpBR p q s
  | .cmpBQ p n => Sys2Proof.Machine.execCmpBQ p n s
  | .cmpWI p imm => Sys2Proof.Machine.execCmpWI p imm s
  | .cmpBI p b => Sys2Proof.Machine.execCmpBI p b s
  | .dcpWI p imm => Sys2Proof.Machine.execDcpWI p imm s
  | .dcpBI p b => Sys2Proof.Machine.execDcpBI p b s
  | .dcpWR p q => Sys2Proof.Machine.execDcpWR p q s
  | .dcpBR p q => Sys2Proof.Machine.execDcpBR p q s
  | .zcpW p => Sys2Proof.Machine.execZcpW p s
  | .zcpB p => Sys2Proof.Machine.execZcpB p s
  -- branches
  | .beqL imm => Sys2Proof.Machine.execBeqL imm s
  | .beqS b => Sys2Proof.Machine.execBeqS b s
  | .bfeL imm => Sys2Proof.Machine.execBfeL imm s
  | .bfeS b => Sys2Proof.Machine.execBfeS b s
  | .bftL imm => Sys2Proof.Machine.execBftL imm s
  | .bftS b => Sys2Proof.Machine.execBftS b s
  | .bgeL imm => Sys2Proof.Machine.execBgeL imm s
  | .bgeS b => Sys2Proof.Machine.execBgeS b s
  | .bgtL imm => Sys2Proof.Machine.execBgtL imm s
  | .bgtS b => Sys2Proof.Machine.execBgtS b s
  | .bleL imm => Sys2Proof.Machine.execBleL imm s
  | .bleS b => Sys2Proof.Machine.execBleS b s
  | .bltL imm => Sys2Proof.Machine.execBltL imm s
  | .bltS b => Sys2Proof.Machine.execBltS b s
  | .bmeL imm => Sys2Proof.Machine.execBmeL imm s
  | .bmeS b => Sys2Proof.Machine.execBmeS b s
  | .bmtL imm => Sys2Proof.Machine.execBmtL imm s
  | .bmtS b => Sys2Proof.Machine.execBmtS b s
  | .bneL imm => Sys2Proof.Machine.execBneL imm s
  | .bneS b => Sys2Proof.Machine.execBneS b s
  | .bnzL imm => Sys2Proof.Machine.execBnzL imm s
  | .bnzS b => Sys2Proof.Machine.execBnzS b s
  | .braR => Sys2Proof.Machine.execBraR s
  | .braL imm => Sys2Proof.Machine.execBraL imm s
  | .braS b => Sys2Proof.Machine.execBraS b s
  | .brcL imm => Sys2Proof.Machine.execBrcL imm s
  | .brcS b => Sys2Proof.Machine.execBrcS b s
  | .brnL imm => Sys2Proof.Machine.execBrnL imm s
  | .brnS b => Sys2Proof.Machine.execBrnS b s
  | .broL imm => Sys2Proof.Machine.execBroL imm s
  | .broS b => Sys2Proof.Machine.execBroS b s
  | .brpL imm => Sys2Proof.Machine.execBrpL imm s
  | .brpS b => Sys2Proof.Machine.execBrpS b s
  | .brzL imm => Sys2Proof.Machine.execBrzL imm s
  | .brzS b => Sys2Proof.Machine.execBrzS b s
  -- jump, call, return
  | .jmpR p => Sys2Proof.Machine.execJmpR p s
  | .jmpA imm => Sys2Proof.Machine.execJmpA imm s
  | .jsrR p => Sys2Proof.Machine.execJsrR p s
  | .jsrA imm => Sys2Proof.Machine.execJsrA imm s
  | .ret => Sys2Proof.Machine.execRet s
  -- system
  | .ent => Sys2Proof.Machine.execEnt s
  | .lve => Sys2Proof.Machine.execLve s
  | .io n => Sys2Proof.Machine.execIo n s
  | .rti => Sys2Proof.Machine.execRti s

end Sys2Proof.Machine
end

