-- ==== Sys2Proof/Machine/Step.lean ====
section
/-! DEFINITION. One step of the machine (R23 of 10_state.md). -/

namespace Sys2Proof.Machine

/-- One step: fetch and decode at `pc`, raise `IllegalInstruction` where the bytes are no instruction (R52, R53), else run
the instruction. The instruction's own rule moves `pc` (R15, R23). -/
def step (s : State) : Host.Outcome State Fault Refusal :=
  match s.fetch with
  | .ok i => exec i s
  | .error _ => raise .illegalInstruction s

/-- `s` with the instruction of a table word stored where the next step fetches: at `pc`. It stands for the load of a
program into `MEM_INIT` from outside the machine (R212, log 3); the word's bits are numbered as in `tableBytes`. -/
def State.withFetchWord (s : State) (nbits w : Nat) : State := s.setMem (s.mem.writeBytes s.pc (tableBytes nbits w))

end Sys2Proof.Machine
end

