-- ==== Sys2Proof/WellFormed.lean ====
section
/-! DEFINITION. Which terms of `Instr` the spec gives a meaning (R56 of 30_encoding.md). -/

namespace Sys2Proof

/-- Every field value is legal but one (R56): the 4-bit field of `io` holds a 2-bit value, 0..3. The operand types rule
out everything else: a register number has 4 bits, an immediate the bits of its field. An `io` with 4..15 still decodes;
the machine raises its fault after the mode check (R182, log 10). -/
def Instr.wellFormed : Instr → Bool
  | .io n => decide (n.toNat ≤ 3)
  | .addWR _ _ | .addBR _ _ | .addWI _ _ | .addBI _ _ | .adqWU _ _ | .adqBU _ _ | .adqWS _ _ | .adqBS _ _ |
    .adsWR _ _ | .adsBR _ _ | .adsWI _ _ | .adsBI _ _ | .subWR _ _ | .subBR _ _ | .subWI _ _ | .subBI _ _ |
    .sbqWU _ _ | .sbqBU _ _ | .sbqWS _ _ | .sbqBS _ _ | .sbsWR _ _ | .sbsBR _ _ | .sbsWI _ _ | .sbsBI _ _ |
    .mulWR _ _ | .mulBR _ _ | .mulWI _ _ | .mulBI _ _ | .mlsWR _ _ | .mlsBR _ _ | .mlsWI _ _ | .mlsBI _ _ |
    .divWR _ _ | .divBR _ _ | .divWI _ _ | .divBI _ _ | .dvsWR _ _ | .dvsBR _ _ | .dvsWI _ _ | .dvsBI _ _ |
    .negW _ | .negB _ => true
  | .andWR _ _ | .andBR _ _ | .andWI _ _ | .andBI _ _ | .orWR _ _ | .orBR _ _ | .orWI _ _ | .orBI _ _ |
    .xorWR _ _ | .xorBR _ _ | .xorWI _ _ | .xorBI _ _ | .notW _ | .notB _ | .shlW _ _ | .shlB _ _ | .shrW _ _ |
    .shrB _ _ | .rolW _ _ | .rolB _ _ | .rorW _ _ | .rorB _ _ | .swpW _ | .swpB _ => true
  | .cpyW _ _ | .cpyB _ _ | .clrW _ | .clrB _ | .stqW _ _ | .stqB _ _ | .excW _ _ | .excB _ _ | .lWR _ _ |
    .lWA _ _ | .lBR _ _ | .lBA _ _ | .sWR _ _ | .sWA _ _ | .sBR _ _ | .sBA _ _ | .pshWR _ | .pshBR _ |
    .pshWI _ | .pshBI _ | .popW _ | .popB _ | .tsr _ | .trs _ | .tpr _ | .trp _ => true
  | .cmpWR _ _ | .cmpWQ _ _ | .cmpBR _ _ | .cmpBQ _ _ | .cmpWI _ _ | .cmpBI _ _ | .dcpWI _ _ | .dcpBI _ _ |
    .dcpWR _ _ | .dcpBR _ _ | .zcpW _ | .zcpB _ => true
  | .beqL _ | .beqS _ | .bfeL _ | .bfeS _ | .bftL _ | .bftS _ | .bgeL _ | .bgeS _ | .bgtL _ | .bgtS _ |
    .bleL _ | .bleS _ | .bltL _ | .bltS _ | .bmeL _ | .bmeS _ | .bmtL _ | .bmtS _ | .bneL _ | .bneS _ |
    .bnzL _ | .bnzS _ | .braR | .braL _ | .braS _ | .brcL _ | .brcS _ | .brnL _ | .brnS _ | .broL _ | .broS _ |
    .brpL _ | .brpS _ | .brzL _ | .brzS _ => true
  | .jmpR _ | .jmpA _ | .jsrR _ | .jsrA _ | .ret => true
  | .ent | .lve | .rti => true

end Sys2Proof
end

