-- ==== Sys2Proof/Safety.lean ====
section
/-! DEFINITION. The terms in which claims about the machine are stated: completion, frames, the flag rules, runs, and the
tables of the spec that speak of all instructions at once. -/

namespace Sys2Proof.Safety

open Sys2Proof.Machine

/-! ### Completion and frames -/

/-- The instruction runs to a next state of which `Q` holds: it neither faults nor is refused. -/
def Completes (i : Instr) (s : State) (Q : State → Prop) : Prop := ∃ t, exec i s = .next t ∧ Q t

/-- Every byte of memory reads as before. -/
def MemoryKept (s t : State) : Prop := ∀ a : Word, t.mem.readByte a = s.mem.readByte a

/-- The bytes that a store of Type `w` at `addr` writes (R33, R36). -/
def Stored (w : Width) (addr a : Word) : Prop := a = addr ∨ (w = .word ∧ a = addr + 1#16)

/-- Every byte of memory outside those stored at `addr` reads as before. -/
def MemoryKeptBut (w : Width) (addr : Word) (s t : State) : Prop :=
  ∀ a : Word, ¬ Stored w addr a → t.mem.readByte a = s.mem.readByte a

/-- The value lies in memory at `addr`, low byte first (R33, R34). -/
def BytesAt (w : Width) (addr : Word) (v : BitVec w.bits) (t : State) : Prop :=
  match w, v with
  | .byte, v => t.mem.readByte addr = v
  | .word, v => t.mem.readByte addr = v.extractLsb' 0 8 ∧ t.mem.readByte (addr + 1#16) = v.extractLsb' 8 8

/-- Every all-purpose register is unchanged. -/
def RegsKept (s t : State) : Prop := ∀ i : Reg, t.x i = s.x i

/-- Every all-purpose register but `p` is unchanged. -/
def RegsKeptBut (p : Reg) (s t : State) : Prop := ∀ i : Reg, i ≠ p → t.x i = s.x i

/-- The mode, the pins and the model's draw counter are unchanged. -/
structure SystemKept (s t : State) : Prop where
  prot : t.prot = s.prot
  iopins : t.iopins = s.iopins
  draws : t.draws = s.draws

/-- Both stack registers, the mode, the pins and the draw counter are unchanged. -/
structure SpecialKept (s t : State) : Prop where
  sp : t.sp = s.sp
  pcs : t.pcs = s.pcs
  system : SystemKept s t

/-- The effect of an instruction whose one destination is register `p`, its flags apart: `p` holds `r` at the operation's
width, a byte operation keeps bits 15:8 of `p` (R12), `pc` moves past the instruction (R15), nothing else changes. -/
structure RegisterResult (w : Width) (p : Reg) (r : BitVec w.bits) (len : Nat) (s t : State) : Prop where
  result : t.xr p w = r
  upper : w = .byte → (t.x p).extractLsb' 8 8 = (s.x p).extractLsb' 8 8
  others : RegsKeptBut p s t
  pc : t.pc = s.pc + BitVec.ofNat 16 len
  special : SpecialKept s t
  memory : MemoryKept s t

/-- The effect of an instruction that writes flags alone. -/
structure FlagsOnly (len : Nat) (s t : State) : Prop where
  regs : RegsKept s t
  pc : t.pc = s.pc + BitVec.ofNat 16 len
  special : SpecialKept s t
  memory : MemoryKept s t

/-- The effect of an instruction that moves `pc` alone. -/
structure ControlOnly (target : Word) (s t : State) : Prop where
  pc : t.pc = target
  regs : RegsKept s t
  flags : t.flags = s.flags
  special : SpecialKept s t
  memory : MemoryKept s t

/-! ### Flag rules -/

/-- The integer is a two's complement value of `w` bits (R4). -/
def FitsSigned (w : Nat) (x : Int) : Prop := -(2 ^ (w - 1) : Int) ≤ x ∧ x ≤ (2 ^ (w - 1) : Int) - 1

/-- N is the result's top bit and Z says that it is zero (R17). -/
structure NZ {w : Nat} (r : BitVec w) (f : Flags) : Prop where
  n : f.n = r.msb
  z : f.z = true ↔ r = 0#w

/-- The four flags of an addition (R71), V as the signed range it stands for. -/
structure AddFlagRule {w : Nat} (a b : BitVec w) (f : Flags) : Prop where
  nz : NZ (a + b) f
  c : f.c = true ↔ 2 ^ w ≤ a.toNat + b.toNat
  v : f.v = true ↔ ¬ FitsSigned w (a.toInt + b.toInt)

/-- The four flags of a subtraction or comparison (R72): C is the borrow, V the signed range. -/
structure SubFlagRule {w : Nat} (a b : BitVec w) (f : Flags) : Prop where
  nz : NZ (a - b) f
  c : f.c = true ↔ a.toNat < b.toNat
  v : f.v = true ↔ ¬ FitsSigned w (a.toInt - b.toInt)

/-- The table of R128: what the flags say of `a` and `b` after a comparison. -/
structure OrderFlags {w : Nat} (a b : BitVec w) (f : Flags) : Prop where
  eq : a = b ↔ f.z = true
  ne : a ≠ b ↔ f.z = false
  below : a.toNat < b.toNat ↔ f.c = true
  aboveEq : b.toNat ≤ a.toNat ↔ f.c = false
  above : b.toNat < a.toNat ↔ f.c = false ∧ f.z = false
  belowEq : a.toNat ≤ b.toNat ↔ f.c = true ∨ f.z = true
  less : a.toInt < b.toInt ↔ f.n ≠ f.v
  greaterEq : b.toInt ≤ a.toInt ↔ f.n = f.v
  greater : b.toInt < a.toInt ↔ f.n = f.v ∧ f.z = false
  lessEq : a.toInt ≤ b.toInt ↔ f.n ≠ f.v ∨ f.z = true

/-! ### Runs -/

/-- `k` steps lead from `s` to `t`, each taken from a state of which `P` holds. -/
def RunsThrough (P : State → Prop) : Nat → State → State → Prop
  | 0, s, t => s = t
  | k + 1, s, t => P s ∧ ∃ u, step s = .next u ∧ RunsThrough P k u t

/-- A run of `k` steps that is over at `t` and not before, for a given `END_OF_RUN` (R211, log 8). A faulted run has no
such `t` (R180). -/
def RunEnds (endOfRun : State → Bool) (k : Nat) (s t : State) : Prop :=
  RunsThrough (fun u => endOfRun u = false) k s t ∧ endOfRun t = true

/-- The spec's recommended `END_OF_RUN`: `pc` is at a `bra` with 8-bit offset 0, bytes `98 00` (R211). -/
def spinsInPlace (s : State) : Bool :=
  match s.fetch with
  | .ok i => decide (i = .braS 0#8)
  | .error _ => false

/-! ### Faults -/

/-- The instruction divides by a zero divisor (R81, R82, R181). -/
def ZeroDivisor (i : Instr) (s : State) : Prop :=
  match i with
  | .divWR _ q => s.xr q .word = 0#16
  | .divBR _ q => s.xr q .byte = 0#8
  | .divWI _ imm => imm = 0#16
  | .divBI _ b => b = 0#8
  | .dvsWR _ q => s.xr q .word = 0#16
  | .dvsBR _ q => s.xr q .byte = 0#8
  | .dvsWI _ imm => imm = 0#16
  | .dvsBI _ b => b = 0#8
  | _ => False

/-- The same outcome, in the given mode. -/
def withMode (b : Bool) : Result → Result
  | .next t => .next (t.setProt b)
  | .fault f => .fault f
  | .refused r => .refused r

/-! ### Tables over all instructions -/

/-- Where an instruction stores to memory and how many bytes, in the state it starts from: the storing instructions of
R31 and no others. -/
def storesTo (i : Instr) (s : State) : Option (Width × Word) :=
  match i with
  | .sWR p _ => some (.word, s.x p)
  | .sWA imm _ => some (.word, imm)
  | .sBR p _ => some (.byte, s.x p)
  | .sBA imm _ => some (.byte, imm)
  | .pshWR _ => some (.word, s.sp - 2#16)
  | .pshWI _ => some (.word, s.sp - 2#16)
  | .pshBR _ => some (.byte, s.sp - 1#16)
  | .pshBI _ => some (.byte, s.sp - 1#16)
  | .jsrR _ => some (.word, s.pcs - 2#16)
  | .jsrA _ => some (.word, s.pcs - 2#16)
  | .ent => some (.word, s.pcs - 2#16)
  | .lve => some (.word, s.pcs - 2#16)
  | _ => none

/-- The instructions that move the stack register (R18). -/
def movesSp : Instr → Bool
  | .trs _ | .pshWR _ | .pshWI _ | .pshBR _ | .pshBI _ | .popW _ | .popB _ => true
  | _ => false

/-- The instructions that move the Program Counter Stack register (R19). -/
def movesPcs : Instr → Bool
  | .trp _ | .jsrR _ | .jsrA _ | .ret | .rti | .ent | .lve => true
  | _ => false

/-- A cell of a "Flags:" table (R17). -/
inductive FlagMark where
  | computed
  | zero
  | one
  | kept
  | drawn
deriving DecidableEq, Repr

/-- What a cell says of its flag before and after (R17); a computed or drawn flag may become either value. -/
def FlagMark.Holds (m : FlagMark) (before after : Bool) : Prop :=
  match m with
  | .kept => after = before
  | .zero => after = false
  | .one => after = true
  | .computed => True
  | .drawn => True

/-- The four cells of a "Flags:" table (R17). -/
structure FlagTable where
  n : FlagMark
  v : FlagMark
  z : FlagMark
  c : FlagMark
deriving DecidableEq, Repr

/-- The flags change as a "Flags:" table says (R17). -/
def FlagTable.Holds (m : FlagTable) (before after : Flags) : Prop :=
  m.n.Holds before.n after.n ∧ m.v.Holds before.v after.v ∧ m.z.Holds before.z after.z ∧ m.c.Holds before.c after.c

/-- The flag writers of R25, one table for each instruction. -/
def flagTable : Instr → FlagTable
  | .addWR _ _ | .addBR _ _ | .addWI _ _ | .addBI _ _ | .adqWU _ _ | .adqBU _ _ | .adqWS _ _ | .adqBS _ _ |
    .adsWR _ _ | .adsBR _ _ | .adsWI _ _ | .adsBI _ _ | .subWR _ _ | .subBR _ _ | .subWI _ _ | .subBI _ _ |
    .sbqWU _ _ | .sbqBU _ _ | .sbqWS _ _ | .sbqBS _ _ | .sbsWR _ _ | .sbsBR _ _ | .sbsWI _ _ | .sbsBI _ _ |
    .mulWR _ _ | .mulBR _ _ | .mulWI _ _ | .mulBI _ _ | .mlsWR _ _ | .mlsBR _ _ | .mlsWI _ _ | .mlsBI _ _ |
    .divWR _ _ | .divBR _ _ | .divWI _ _ | .divBI _ _ | .dvsWR _ _ | .dvsBR _ _ | .dvsWI _ _ | .dvsBI _ _ |
    .cmpWR _ _ | .cmpWQ _ _ | .cmpBR _ _ | .cmpBQ _ _ | .cmpWI _ _ | .cmpBI _ _ | .dcpWI _ _ | .dcpBI _ _ |
    .dcpWR _ _ | .dcpBR _ _ =>
    ⟨.computed, .computed, .computed, .computed⟩
  | .andWR _ _ | .andBR _ _ | .andWI _ _ | .andBI _ _ | .orWR _ _ | .orBR _ _ | .orWI _ _ | .orBI _ _ |
    .xorWR _ _ | .xorBR _ _ | .xorWI _ _ | .xorBI _ _ | .notW _ | .notB _ | .cpyW _ _ | .cpyB _ _ =>
    ⟨.computed, .zero, .computed, .zero⟩
  | .clrW _ | .clrB _ =>
    ⟨.zero, .zero, .one, .zero⟩
  | .excW _ _ | .excB _ _ | .ent | .lve =>
    ⟨.zero, .zero, .zero, .zero⟩
  | .lWR _ _ | .lWA _ _ | .lBR _ _ | .lBA _ _ | .popW _ | .popB _ =>
    ⟨.computed, .kept, .computed, .kept⟩
  | .shlW _ _ | .shlB _ _ | .shrW _ _ | .shrB _ _ =>
    ⟨.kept, .kept, .kept, .computed⟩
  | .stqW _ _ | .stqB _ _ =>
    ⟨.drawn, .drawn, .computed, .drawn⟩
  | .zcpW _ | .zcpB _ =>
    ⟨.kept, .kept, .computed, .kept⟩
  | .negW _ | .negB _ | .rolW _ _ | .rolB _ _ | .rorW _ _ | .rorB _ _ | .swpW _ | .swpB _ | .sWR _ _ |
    .sWA _ _ | .sBR _ _ | .sBA _ _ | .pshWR _ | .pshBR _ | .pshWI _ | .pshBI _ | .tsr _ | .trs _ | .tpr _ |
    .trp _ | .beqL _ | .beqS _ | .bfeL _ | .bfeS _ | .bftL _ | .bftS _ | .bgeL _ | .bgeS _ | .bgtL _ |
    .bgtS _ | .bleL _ | .bleS _ | .bltL _ | .bltS _ | .bmeL _ | .bmeS _ | .bmtL _ | .bmtS _ | .bneL _ |
    .bneS _ | .bnzL _ | .bnzS _ | .braR | .braL _ | .braS _ | .brcL _ | .brcS _ | .brnL _ | .brnS _ |
    .broL _ | .broS _ | .brpL _ | .brpS _ | .brzL _ | .brzS _ | .jmpR _ | .jmpA _ | .jsrR _ | .jsrA _ | .ret |
    .io _ | .rti =>
    ⟨.kept, .kept, .kept, .kept⟩

/-- The 50 opcodes of 4 bytes, as R51 lists them. -/
def fourByteOpcodes : List Nat :=
  [0x1B, 0x1C, 0x1D, 0x1E, 0x1F, 0x20, 0x21, 0x22, 0x23, 0x42, 0x43, 0x57, 0x58, 0x5B, 0x80, 0x87,
   0x88, 0x8A, 0x8B, 0x8D, 0x8E, 0x8F, 0x90, 0x91, 0x92, 0x93, 0x99, 0x9C, 0x9D, 0x9E, 0x9F, 0xA0,
   0xA1, 0xA2, 0xA3, 0xC2, 0xC3, 0xC7, 0xC8, 0xCA, 0xCB, 0xCD, 0xCE, 0xCF, 0xD0, 0xD1, 0xD2, 0xD3,
   0xD7, 0xD9]

/-- The opcodes whose operand byte is printed with bits 3:0 zero: formats R, N, RW and RB (R47, R53). -/
def lowNibbleZero : List Nat :=
  [0x00, 0x01, 0x14, 0x17, 0x1B, 0x24, 0x40, 0x41, 0x42, 0x54, 0x5B, 0x64, 0x84, 0x85, 0x87, 0x88,
   0x8A, 0x8B, 0x8D, 0x8E, 0x8F, 0x90, 0x91, 0x92, 0x93, 0x94, 0x97, 0x99, 0x9A, 0xA4, 0xC2, 0xC4,
   0xC5, 0xC7, 0xC8, 0xCA, 0xCB, 0xCD, 0xCE, 0xCF, 0xD0, 0xD1, 0xD2, 0xD3, 0xD4, 0xD9, 0xDA, 0xE4,
   0xE5]

/-- The opcodes whose operand byte is printed with bits 7:4 zero: format QW (R47, R53). -/
def highNibbleZero : List Nat :=
  [0x43, 0xC3]

/-- The opcodes whose operand byte is printed zero: formats Z and W (R47, R53). -/
def operandByteZero : List Nat :=
  [0x18, 0x1C, 0x1D, 0x1E, 0x1F, 0x20, 0x21, 0x22, 0x23, 0x25, 0x57, 0x58, 0x65, 0x80, 0x9C, 0x9D,
   0x9E, 0x9F, 0xA0, 0xA1, 0xA2, 0xA3, 0xA5, 0xD7, 0xD8]

/-- The opcodes whose byte 3 is printed zero: format RB (R47, R53). -/
def lastByteZero : List Nat :=
  [0x5B, 0xC7, 0xC8, 0xCA, 0xCB, 0xCD, 0xCE, 0xCF, 0xD0, 0xD1, 0xD2, 0xD3, 0xD9]

/-- The opcode byte is one of the 108 that no row lists (R52). -/
def Unassigned (op : Byte) : Prop :=
  op.toNat = 0x81 ∨ op.toNat = 0x86 ∨ op.toNat = 0xC1 ∨ op.toNat = 0xC6 ∨ 0x26 ≤ op.toNat % 64

/-- A bit that the Encoding column prints as `0` is 1, in the instruction with these bytes 0, 1 and 3 (R53). -/
def PrintedZeroSet (op b1 b3 : Byte) : Prop :=
  (op.toNat ∈ lowNibbleZero ∧ b1.extractLsb' 0 4 ≠ 0#4) ∨ (op.toNat ∈ highNibbleZero ∧ b1.extractLsb' 4 4 ≠ 0#4) ∨
    (op.toNat ∈ operandByteZero ∧ b1 ≠ 0#8) ∨ (op.toNat ∈ lastByteZero ∧ b3 ≠ 0#8)

/-- The row of the fault table (R181) that a step's fault belongs to, with the `pc` it records. -/
def FaultCause (s : State) : Fault → Prop
  | .illegalInstruction pc =>
    pc = s.pc ∧
      (Unassigned (s.mem.readByte s.pc) ∨
        PrintedZeroSet (s.mem.readByte s.pc) (s.mem.readByte (s.pc + 1#16)) (s.mem.readByte (s.pc + 3#16)) ∨
        ∃ n, s.fetch = .ok (.io n) ∧ s.prot = false ∧ 3 < n.toNat)
  | .protectionViolation pc => pc = s.pc ∧ s.prot = true ∧ (s.fetch = .ok .ent ∨ ∃ n, s.fetch = .ok (.io n))
  | .divideByZero pc => pc = s.pc ∧ ∃ i, s.fetch = .ok i ∧ ZeroDivisor i s

end Sys2Proof.Safety
end

