-- ==== Sys2Proof/Certificates/Slice0/Obligations.lean ====
section
/-! DEFINITION. The statements about the machine: definitions, no proofs. The shapes that several statements share stand
first, in namespace `Sys2Proof.Claims`. -/

namespace Sys2Proof.Claims

open Sys2Proof.Machine Sys2Proof.Safety

/-! ### Shapes -/

/-- The instruction completes with `p + b` in `p` and the flags of the addition (R71). -/
def AddsTo (i : Instr) (w : Width) (p : Reg) (b : BitVec w.bits) (len : Nat) (s : State) : Prop :=
  Completes i s fun t =>
    RegisterResult w p (BitVec.ofNat w.bits ((s.xr p w).toNat + b.toNat)) len s t ∧ AddFlagRule (s.xr p w) b t.flags

/-- The instruction completes with `p - b` in `p` and the flags of the subtraction (R72). -/
def SubtractsFrom (i : Instr) (w : Width) (p : Reg) (b : BitVec w.bits) (len : Nat) (s : State) : Prop :=
  Completes i s fun t =>
    RegisterResult w p (BitVec.ofInt w.bits ((s.xr p w).toInt - b.toInt)) len s t ∧
      SubFlagRule (s.xr p w) b t.flags

/-- The instruction completes with the low bits of the unsigned product (R79). -/
def MultipliesUnsigned (i : Instr) (w : Width) (p : Reg) (b : BitVec w.bits) (len : Nat) (s : State) : Prop :=
  Completes i s fun t =>
    RegisterResult w p (s.xr p w * b) len s t ∧ NZ (s.xr p w * b) t.flags ∧
      (t.flags.c = true ↔ 2 ^ w.bits ≤ (s.xr p w).toNat * b.toNat) ∧ t.flags.v = t.flags.c

/-- The instruction completes with the low bits of the signed product, which are those of the unsigned one (R80). -/
def MultipliesSigned (i : Instr) (w : Width) (p : Reg) (b : BitVec w.bits) (len : Nat) (s : State) : Prop :=
  Completes i s fun t =>
    RegisterResult w p (s.xr p w * b) len s t ∧ NZ (s.xr p w * b) t.flags ∧
      (t.flags.v = true ↔ ¬ FitsSigned w.bits ((s.xr p w).toInt * b.toInt)) ∧ t.flags.c = t.flags.v

/-- The instruction completes with the unsigned quotient rounded down (R81). -/
def DividesUnsigned (i : Instr) (w : Width) (p : Reg) (b : BitVec w.bits) (len : Nat) (s : State) : Prop :=
  Completes i s fun t =>
    ∃ r : BitVec w.bits,
      r.toNat * b.toNat ≤ (s.xr p w).toNat ∧ (s.xr p w).toNat < (r.toNat + 1) * b.toNat ∧
        RegisterResult w p r len s t ∧ NZ r t.flags ∧ t.flags.v = false ∧ t.flags.c = false

/-- The instruction completes with the signed quotient rounded toward zero (R82). -/
def DividesSigned (i : Instr) (w : Width) (p : Reg) (b : BitVec w.bits) (len : Nat) (s : State) : Prop :=
  Completes i s fun t =>
    ∃ q : Int,
      q.natAbs = (s.xr p w).toInt.natAbs / b.toInt.natAbs ∧
        (q ≠ 0 → q.sign = ((s.xr p w).toInt * b.toInt).sign) ∧
        RegisterResult w p (BitVec.ofInt w.bits q) len s t ∧ NZ (BitVec.ofInt w.bits q) t.flags ∧
        (t.flags.v = true ↔ ¬ FitsSigned w.bits q) ∧
        (t.flags.v = true ↔ (s.xr p w).toInt = -(2 ^ (w.bits - 1) : Int) ∧ b.toInt = -1) ∧ t.flags.c = false

/-- The instruction completes with `r` in `p`, N and Z of it, V and C cleared (R99, R105). -/
def LogicTo (i : Instr) (w : Width) (p : Reg) (r : BitVec w.bits) (len : Nat) (s : State) : Prop :=
  Completes i s fun t => RegisterResult w p r len s t ∧ NZ r t.flags ∧ t.flags.v = false ∧ t.flags.c = false

/-- The instruction completes with `r` in `p` and no flag written. -/
def QuietTo (i : Instr) (w : Width) (p : Reg) (r : BitVec w.bits) (len : Nat) (s : State) : Prop :=
  Completes i s fun t => RegisterResult w p r len s t ∧ t.flags = s.flags

/-- The instruction completes with `p` shifted left by `k`, C set when a 1 bit left at the top (R94). -/
def ShiftsLeft (i : Instr) (w : Width) (p : Reg) (k : Nat) (s : State) : Prop :=
  Completes i s fun t =>
    RegisterResult w p (s.xr p w <<< k) 2 s t ∧
      (t.flags.c = true ↔ ∃ j, w.bits ≤ j + k ∧ (s.xr p w).getLsbD j = true) ∧ t.flags.n = s.flags.n ∧
      t.flags.v = s.flags.v ∧ t.flags.z = s.flags.z

/-- The instruction completes with `p` shifted right by `k`, C set when a 1 bit left at the bottom (R95). -/
def ShiftsRight (i : Instr) (w : Width) (p : Reg) (k : Nat) (s : State) : Prop :=
  Completes i s fun t =>
    RegisterResult w p (s.xr p w >>> k) 2 s t ∧
      (t.flags.c = true ↔ ∃ j, j < k ∧ (s.xr p w).getLsbD j = true) ∧ t.flags.n = s.flags.n ∧
      t.flags.v = s.flags.v ∧ t.flags.z = s.flags.z

/-- The instruction completes with the quick value in `p` and Z of it; N, V and C are free (R107, log 5), and the model's
draw counter may move. -/
def SetsQuick (i : Instr) (w : Width) (p : Reg) (n : Nibble) (s : State) : Prop :=
  Completes i s fun t =>
    (t.xr p w).toNat = n.toNat ∧ (w = .byte → (t.x p).extractLsb' 8 8 = (s.x p).extractLsb' 8 8) ∧
      RegsKeptBut p s t ∧ (t.flags.z = true ↔ n = 0#4) ∧ t.pc = s.pc + 2#16 ∧ t.sp = s.sp ∧ t.pcs = s.pcs ∧
      t.prot = s.prot ∧ t.iopins = s.iopins ∧ MemoryKept s t

/-- The instruction completes with `p` and `q` exchanged at the operation's width and the flags cleared (R108). -/
def Exchanges (i : Instr) (w : Width) (p q : Reg) (s : State) : Prop :=
  Completes i s fun t =>
    t.xr p w = s.xr q w ∧ t.xr q w = s.xr p w ∧
      (w = .byte → (t.x p).extractLsb' 8 8 = (s.x p).extractLsb' 8 8 ∧
        (t.x q).extractLsb' 8 8 = (s.x q).extractLsb' 8 8) ∧
      (∀ j : Reg, j ≠ p → j ≠ q → t.x j = s.x j) ∧ t.flags = ⟨false, false, false, false⟩ ∧ t.pc = s.pc + 2#16 ∧
      SpecialKept s t ∧ MemoryKept s t

/-- The instruction completes with the loaded value `v` in `p`, N and Z of it, V and C unchanged (R109). -/
def LoadsTo (i : Instr) (w : Width) (p : Reg) (v : BitVec w.bits) (len : Nat) (s : State) : Prop :=
  Completes i s fun t =>
    RegisterResult w p v len s t ∧ NZ v t.flags ∧ t.flags.v = s.flags.v ∧ t.flags.c = s.flags.c

/-- The instruction completes with `v` in memory at `addr` and nothing else changed (R110). -/
def StoresTo (i : Instr) (w : Width) (addr : Word) (v : BitVec w.bits) (len : Nat) (s : State) : Prop :=
  Completes i s fun t =>
    (s.mem.wf → BytesAt w addr v t) ∧ MemoryKeptBut w addr s t ∧ RegsKept s t ∧ t.flags = s.flags ∧
      t.pc = s.pc + BitVec.ofNat 16 len ∧ SpecialKept s t

/-- The instruction completes with `v` pushed on the data stack (R111, R117). -/
def Pushes (i : Instr) (w : Width) (v : BitVec w.bits) (len : Nat) (s : State) : Prop :=
  Completes i s fun t =>
    t.sp = s.sp - BitVec.ofNat 16 w.bytes ∧ (s.mem.wf → BytesAt w (s.sp - BitVec.ofNat 16 w.bytes) v t) ∧
      MemoryKeptBut w (s.sp - BitVec.ofNat 16 w.bytes) s t ∧ RegsKept s t ∧ t.flags = s.flags ∧
      t.pc = s.pc + BitVec.ofNat 16 len ∧ t.pcs = s.pcs ∧ SystemKept s t

/-- The instruction completes with the popped value `v` in `p` (R112, R117). -/
def Pops (i : Instr) (w : Width) (p : Reg) (v : BitVec w.bits) (s : State) : Prop :=
  Completes i s fun t =>
    t.xr p w = v ∧ (w = .byte → (t.x p).extractLsb' 8 8 = (s.x p).extractLsb' 8 8) ∧ RegsKeptBut p s t ∧
      t.sp = s.sp + BitVec.ofNat 16 w.bytes ∧ NZ v t.flags ∧ t.flags.v = s.flags.v ∧ t.flags.c = s.flags.c ∧
      t.pc = s.pc + 2#16 ∧ t.pcs = s.pcs ∧ SystemKept s t ∧ MemoryKept s t

/-- The instruction completes with the flags of `p - b` and nothing else (R125). -/
def Compares (i : Instr) (w : Width) (p : Reg) (b : BitVec w.bits) (len : Nat) (s : State) : Prop :=
  Completes i s fun t => FlagsOnly len s t ∧ SubFlagRule (s.xr p w) b t.flags

/-- The instruction completes with `p - 1` in `p` and the flags of comparing that with `b` (R126). -/
def Decreases (i : Instr) (w : Width) (p : Reg) (b : BitVec w.bits) (len : Nat) (s : State) : Prop :=
  Completes i s fun t =>
    RegisterResult w p (s.xr p w - 1#w.bits) len s t ∧ SubFlagRule (s.xr p w - 1#w.bits) b t.flags

/-- The instruction completes with Z alone written (R127). -/
def TestsZero (i : Instr) (w : Width) (p : Reg) (s : State) : Prop :=
  Completes i s fun t =>
    FlagsOnly 2 s t ∧ (t.flags.z = true ↔ s.xr p w = 0#w.bits) ∧ t.flags.n = s.flags.n ∧ t.flags.v = s.flags.v ∧
      t.flags.c = s.flags.c

/-- The instruction completes and its flags order `a` and `b` (R128). -/
def OrderAfter (i : Instr) (w : Width) (a b : BitVec w.bits) (s : State) : Prop :=
  Completes i s fun t => OrderFlags a b t.flags

/-- Both forms of a branch complete, taken exactly when `cond` holds of the flags (R132, R153). -/
def BranchesOn (long short : Instr) (cond : Flags → Bool) (imm : Word) (b : Byte) (s : State) : Prop :=
  Completes long s (ControlOnly (if cond s.flags then s.pc + imm else s.pc + 4#16) s) ∧
    Completes short s (ControlOnly (if cond s.flags then s.pc + b.signExtend 16 else s.pc + 2#16) s)

/-- Both forms of a branch complete, taken exactly when the proposition holds (R132, R151). -/
def BranchesWhen (long short : Instr) (taken : Prop) (imm : Word) (b : Byte) (s : State) : Prop :=
  (taken → Completes long s (ControlOnly (s.pc + imm) s) ∧ Completes short s (ControlOnly (s.pc + b.signExtend 16) s)) ∧
    (¬ taken → Completes long s (ControlOnly (s.pc + 4#16) s) ∧ Completes short s (ControlOnly (s.pc + 2#16) s))

/-- Each branch is taken on the relation between `x` and `y` that R151 gives it. -/
def BranchesByOrder {w : Nat} (x y : BitVec w) (imm : Word) (b : Byte) (s : State) : Prop :=
  BranchesWhen (.beqL imm) (.beqS b) (x = y) imm b s ∧
    BranchesWhen (.brzL imm) (.brzS b) (x = y) imm b s ∧
    BranchesWhen (.bfeL imm) (.bfeS b) (x = y) imm b s ∧
    BranchesWhen (.bneL imm) (.bneS b) (x ≠ y) imm b s ∧
    BranchesWhen (.bnzL imm) (.bnzS b) (x ≠ y) imm b s ∧
    BranchesWhen (.bgtL imm) (.bgtS b) (y.toInt < x.toInt) imm b s ∧
    BranchesWhen (.bltL imm) (.bltS b) (x.toInt < y.toInt) imm b s ∧
    BranchesWhen (.bleL imm) (.bleS b) (x.toInt ≤ y.toInt) imm b s ∧
    BranchesWhen (.bgeL imm) (.bgeS b) (True) imm b s ∧
    BranchesWhen (.bmtL imm) (.bmtS b) (y.toNat < x.toNat) imm b s ∧
    BranchesWhen (.bmeL imm) (.bmeS b) (y.toNat ≤ x.toNat) imm b s ∧
    BranchesWhen (.brcL imm) (.brcS b) (x.toNat < y.toNat) imm b s ∧
    BranchesWhen (.bftL imm) (.bftS b) (False) imm b s

/-- The 16 states of the flags (R153). -/
def allFlags : List Flags :=
  [false, true].flatMap fun n => [false, true].flatMap fun v => [false, true].flatMap fun z =>
    [false, true].map fun c => ⟨n, v, z, c⟩

/-- When each conditional mnemonic is taken by the model's own table, in the order of R153's rows but for `bra`. -/
def branchConditions : List (Flags → Bool) :=
  [condBeq, condBfe, condBft, condBge, condBgt, condBle, condBlt, condBme, condBmt, condBne, condBnz, condBrc, condBrn,
    condBro, condBrp, condBrz].map condHolds

/-- Every branch with a 16-bit offset, in the order of R153's rows. -/
def longBranches (imm : Word) : List Instr :=
  [.beqL imm, .bfeL imm, .bftL imm, .bgeL imm, .bgtL imm, .bleL imm, .bltL imm, .bmeL imm, .bmtL imm, .bneL imm,
   .bnzL imm, .braL imm, .brcL imm, .brnL imm, .broL imm, .brpL imm, .brzL imm]

/-- Every branch with an 8-bit offset, in the order of R153's rows. -/
def shortBranches (b : Byte) : List Instr :=
  [.beqS b, .bfeS b, .bftS b, .bgeS b, .bgtS b, .bleS b, .bltS b, .bmeS b, .bmtS b, .bneS b, .bnzS b, .braS b,
   .brcS b, .brnS b, .broS b, .brpS b, .brzS b]

/-- R153's opcodes of the branches with a 16-bit offset (W). -/
def longBranchOpcodes : List Byte :=
  [0x1C#8, 0xA0#8, 0x9E#8, 0x1F#8, 0x1D#8, 0x9F#8, 0x9D#8, 0x20#8, 0x1E#8, 0x9C#8, 0xA1#8, 0x58#8, 0x22#8,
   0xA3#8, 0xA2#8, 0x23#8, 0x21#8]

/-- R153's opcodes of the branches with an 8-bit offset (B). -/
def shortBranchOpcodes : List Byte :=
  [0x5C#8, 0xE0#8, 0xDE#8, 0x5F#8, 0x5D#8, 0xDF#8, 0xDD#8, 0x60#8, 0x5E#8, 0xDC#8, 0xE1#8, 0x98#8, 0x62#8,
   0xE3#8, 0xE2#8, 0x63#8, 0x61#8]

/-- The effect of a call by an instruction of `len` bytes, its own effect on flags and mode apart (R161, R188): the next
instruction's address is on the PC Stack and `pc` is the target. -/
structure Calls (target : Word) (len : Nat) (s t : State) : Prop where
  pc : t.pc = target
  pcs : t.pcs = s.pcs - 2#16
  pushed : s.mem.wf → BytesAt .word (s.pcs - 2#16) (s.pc + BitVec.ofNat 16 len) t
  memory : MemoryKeptBut .word (s.pcs - 2#16) s t
  regs : RegsKept s t
  sp : t.sp = s.sp
  iopins : t.iopins = s.iopins
  draws : t.draws = s.draws

/-- The effect of a return (R162, R170): `pc` is popped from the PC Stack and nothing else is restored. -/
structure Returns (s t : State) : Prop where
  pc : t.pc = s.mem.readByte (s.pcs + 1#16) ++ s.mem.readByte s.pcs
  pcs : t.pcs = s.pcs + 2#16
  sp : t.sp = s.sp
  regs : RegsKept s t
  flags : t.flags = s.flags
  system : SystemKept s t
  memory : MemoryKept s t

end Sys2Proof.Claims

section

open Sys2Proof Sys2Proof.Machine Sys2Proof.Safety Sys2Proof.Claims

/-! ### Statements -/

/-- Decoding an encoded instruction gives it back, with the bytes that follow. Rests on 30_encoding.md section 1
(formats) and section 3 (opcode table), 90_conflicts.md C8. -/
def Obligations.DecodeInvertsEncode : Prop :=
  ∀ (i : Instr) (rest : List Byte), decode (encode i ++ rest) = .ok (i, rest)

/-- Bytes that decode are the encoding of what they decode to. Rests on 30_encoding.md section 1 (field positions)
and section 4 (printed-zero bits). -/
def Obligations.EncodeInvertsDecode : Prop :=
  ∀ (bytes : List Byte) (i : Instr) (rest : List Byte), decode bytes = .ok (i, rest) → bytes = encode i ++ rest

/-- The opcode byte decides the length: 50 opcodes of 4 bytes, 98 of 2, 108 of none. Formalises R51. -/
def Obligations.OpcodeByteDecidesLength : Prop :=
  (∀ op : Byte, opcodeLength op.toNat = some 4 ↔ op.toNat ∈ fourByteOpcodes) ∧
    (∀ op : Byte, opcodeLength op.toNat = some 2 ↔ ¬ Unassigned op ∧ op.toNat ∉ fourByteOpcodes) ∧
    (∀ (op : Byte) (bytes : List Byte), Unassigned op →
      opcodeLength op.toNat = none ∧ decode (op :: bytes) = .error (.unassignedOpcode op)) ∧
    fourByteOpcodes.length = 50 ∧ fourByteOpcodes.Nodup ∧
    ((List.range 256).filter fun op => opcodeLength op == some 2).length = 98

/-- Executing an unassigned opcode raises IllegalInstruction. Formalises R52. -/
def Obligations.UnassignedOpcodesFault : Prop :=
  (∀ s : State, Unassigned (s.mem.readByte s.pc) → step s = .fault (.illegalInstruction s.pc)) ∧
    (∀ op : Byte, Unassigned op ↔ opcodeRow op.toNat = none) ∧
    ((List.range 256).filter fun op => (opcodeRow op).isNone).length = 108

/-- A printed-zero bit that is 1 raises IllegalInstruction, and nothing else about an assigned opcode stops its
fetch. Formalises R53. -/
def Obligations.PrintedZeroBitsFault : Prop :=
  ∀ s : State,
    (PrintedZeroSet (s.mem.readByte s.pc) (s.mem.readByte (s.pc + 1#16)) (s.mem.readByte (s.pc + 3#16)) →
      step s = .fault (.illegalInstruction s.pc)) ∧
    (¬ Unassigned (s.mem.readByte s.pc) →
      ¬ PrintedZeroSet (s.mem.readByte s.pc) (s.mem.readByte (s.pc + 1#16)) (s.mem.readByte (s.pc + 3#16)) →
      ∃ i, s.fetch = .ok i)

/-- The seven encodings that the spec reads off the source decode to their instructions. Rests on 95_test_vectors.md
section 1 (the seven encodings read from the source). -/
def Obligations.PrintedWordsDecode : Prop :=
  decode [0x07#8, 0x12#8] = .ok (.addWR 1 2, []) ∧
    decode [0x87#8, 0x10#8, 0x34#8, 0x12#8] = .ok (.addWI 1 0x1234#16, []) ∧
    decode [0xC7#8, 0x10#8, 0x80#8, 0x00#8] = .ok (.addBI 1 0x80#8, []) ∧
    decode [0xC0#8, 0x7F#8] = .ok (.pshBI 0x7F#8, []) ∧
    decode [0x5C#8, 0x10#8] = .ok (.beqS 0x10#8, []) ∧
    decode [0xD7#8, 0x00#8, 0x45#8, 0x23#8] = .ok (.jsrA 0x2345#16, []) ∧
    decode [0xE5#8, 0x20#8] = .ok (.io 2#4, [])

/-- A step runs the instruction that the bytes at pc decode to. Rests on 10_state.md section 7 (the instruction
cycle). -/
def Obligations.StepRunsDecodedInstruction : Prop :=
  ∀ (s : State) (i : Instr) (rest : List Byte),
    decode (s.mem.readBytes s.pc 4) = .ok (i, rest) → step s = exec i s

/-- An instruction written at pc is the one the next step runs. Rests on 20_memory.md section 6 (instruction-fetch
coherence) and section 7 (instruction fetch), 70_reset_and_hazards.md section 3. -/
def Obligations.StoredInstructionRunsNext : Prop :=
  ∀ (s : State) (i : Instr), s.mem.wf →
    step (s.setMem (s.mem.writeBytes s.pc (encode i))) = exec i (s.setMem (s.mem.writeBytes s.pc (encode i)))

/-- A memory write stores its bytes little-endian, wrapping, and changes no other byte. Formalises R33. -/
def Obligations.WritesReadBack : Prop :=
  ∀ (m : Memory) (a v : Word) (b : Byte), m.wf →
    (m.writeByte a b).readByte a = b ∧
    (∀ c, c ≠ a → (m.writeByte a b).readByte c = m.readByte c) ∧
    (m.writeWord a v).readByte a = v.extractLsb' 0 8 ∧
    (m.writeWord a v).readByte (a + 1#16) = v.extractLsb' 8 8 ∧
    (∀ c, c ≠ a → c ≠ a + 1#16 → (m.writeWord a v).readByte c = m.readByte c) ∧
    (m.writeWord a v).readWord a = v

/-- Two canonical memories that read the same everywhere are equal (the model's representation, log 3). Rests on
20_memory.md section 1, notes/assumptions/3.md (the model's representation). -/
def Obligations.EqualReadsAreEqualMemory : Prop :=
  ∀ m m' : Memory, m.wf → m'.wf → (∀ a : Word, m.readByte a = m'.readByte a) → m = m'

/-- Every step keeps memory in its canonical form (the model's representation, log 3). Rests on 20_memory.md section
1, notes/assumptions/3.md (the model's representation). -/
def Obligations.StepKeepsMemoryCanonical : Prop :=
  ∀ s t : State, s.mem.wf → step s = .next t → t.mem.wf

/-- Reset leaves Protected Mode off and memory canonical, whatever the open values are. Rests on 10_state.md section
6 (R22: prot is 0, the rest open), notes/assumptions/1.md, notes/assumptions/3.md. -/
def Obligations.ResetValues : Prop :=
  (∀ r : ResetParams,
      (State.resetFrom r).prot = false ∧ (State.resetFrom r).pc = r.pc ∧ (State.resetFrom r).regs = r.regs ∧
        (State.resetFrom r).flags = r.flags ∧ (State.resetFrom r).sp = r.sp ∧ (State.resetFrom r).pcs = r.pcs ∧
        (State.resetFrom r).iopins = r.iopins ∧ (State.resetFrom r).mem = r.mem ∧
        (r.mem.wf → (State.resetFrom r).mem.wf)) ∧
    State.reset.prot = false ∧ State.reset.mem.wf ∧ ∃ r, State.reset = State.resetFrom r

/-- A byte operation reads and writes bits 7:0 of a register and keeps bits 15:8. Rests on 10_state.md section 2
(typed access). -/
def Obligations.TypedAccessUsesLowByte : Prop :=
  ∀ (s : State) (i : Reg) (v : Word) (b : Byte),
    s.xr i .word = s.x i ∧ s.xr i .byte = (s.x i).extractLsb' 0 8 ∧
    (s.xw i .word v).x i = v ∧ (s.xw i .byte b).x i = (s.x i).extractLsb' 8 8 ++ b ∧
    RegsKeptBut i s (s.xw i .word v) ∧ RegsKeptBut i s (s.xw i .byte b)

/-- AddFlags: N, Z, the carry out, and V as both of R71's descriptions of it. Formalises R71. -/
def Obligations.AddFlagsAreCarryAndSignedOverflow : Prop :=
  ∀ (w : Width) (a b : BitVec w.bits),
    (addFlags a b).n = (a + b).msb ∧ ((addFlags a b).z = true ↔ a + b = 0#w.bits) ∧
    ((addFlags a b).c = true ↔ 2 ^ w.bits ≤ a.toNat + b.toNat) ∧
    ((addFlags a b).v = true ↔ a.msb = b.msb ∧ (a + b).msb ≠ a.msb) ∧
    ((addFlags a b).v = true ↔ ¬ FitsSigned w.bits (a.toInt + b.toInt))

/-- SubFlags: N, Z, the borrow, and V as both of R72's descriptions of it. Formalises R72. -/
def Obligations.SubFlagsAreBorrowAndSignedOverflow : Prop :=
  ∀ (w : Width) (a b : BitVec w.bits),
    (subFlags a b).n = (a - b).msb ∧ ((subFlags a b).z = true ↔ a - b = 0#w.bits) ∧
    ((subFlags a b).c = true ↔ a.toNat < b.toNat) ∧
    ((subFlags a b).v = true ↔ a.msb ≠ b.msb ∧ (a - b).msb ≠ a.msb) ∧
    ((subFlags a b).v = true ↔ ¬ FitsSigned w.bits (a.toInt - b.toInt))

/-- After cmp, dcp, sub, sbs and sbq the flags say how the operands compare, unsigned and signed. Formalises R128. -/
def Obligations.FlagsAfterComparisonAreOrder : Prop :=
  ∀ (s : State) (p q : Reg) (n : Nibble) (imm : Word) (b : Byte),
    OrderAfter (.cmpWR p q) .word (s.xr p .word) (s.xr q .word) s ∧
    OrderAfter (.cmpWI p imm) .word (s.xr p .word) imm s ∧
    OrderAfter (.cmpWQ p n) .word (s.xr p .word) (n.setWidth 16) s ∧
    OrderAfter (.subWR p q) .word (s.xr p .word) (s.xr q .word) s ∧
    OrderAfter (.subWI p imm) .word (s.xr p .word) imm s ∧
    OrderAfter (.sbsWR p q) .word (s.xr p .word) (s.xr q .word) s ∧
    OrderAfter (.sbsWI p imm) .word (s.xr p .word) imm s ∧
    OrderAfter (.sbqWU p n) .word (s.xr p .word) (n.setWidth 16) s ∧
    OrderAfter (.sbqWS p n) .word (s.xr p .word) (n.signExtend 16) s ∧
    (q ≠ p → OrderAfter (.dcpWR p q) .word (s.xr p .word - 1#16) (s.xr q .word) s) ∧
    OrderAfter (.dcpWR p p) .word (s.xr p .word - 1#16) (s.xr p .word - 1#16) s ∧
    OrderAfter (.dcpWI p imm) .word (s.xr p .word - 1#16) imm s ∧
    OrderAfter (.cmpBR p q) .byte (s.xr p .byte) (s.xr q .byte) s ∧
    OrderAfter (.cmpBI p b) .byte (s.xr p .byte) b s ∧
    OrderAfter (.cmpBQ p n) .byte (s.xr p .byte) (n.setWidth 8) s ∧
    OrderAfter (.subBR p q) .byte (s.xr p .byte) (s.xr q .byte) s ∧
    OrderAfter (.subBI p b) .byte (s.xr p .byte) b s ∧
    OrderAfter (.sbsBR p q) .byte (s.xr p .byte) (s.xr q .byte) s ∧
    OrderAfter (.sbsBI p b) .byte (s.xr p .byte) b s ∧
    OrderAfter (.sbqBU p n) .byte (s.xr p .byte) (n.setWidth 8) s ∧
    OrderAfter (.sbqBS p n) .byte (s.xr p .byte) (n.signExtend 8) s ∧
    (q ≠ p → OrderAfter (.dcpBR p q) .byte (s.xr p .byte - 1#8) (s.xr q .byte) s) ∧
    OrderAfter (.dcpBR p p) .byte (s.xr p .byte - 1#8) (s.xr p .byte - 1#8) s ∧
    OrderAfter (.dcpBI p b) .byte (s.xr p .byte - 1#8) b s

/-- add, adq and ads complete, write the wrapped sum and the four flags, and change nothing else. Rests on
40_arithmetic.md section 2 (add, adq, ads: pseudocode and flags), 30_encoding.md section 2 (immediates). -/
def Obligations.AdditionsWriteSumAndFlags : Prop :=
  ∀ (s : State) (p q : Reg) (n : Nibble) (imm : Word) (b : Byte),
    AddsTo (.addWR p q) .word p (s.xr q .word) 2 s ∧
    AddsTo (.addWI p imm) .word p imm 4 s ∧
    AddsTo (.addBR p q) .byte p (s.xr q .byte) 2 s ∧
    AddsTo (.addBI p b) .byte p b 4 s ∧
    AddsTo (.adsWR p q) .word p (s.xr q .word) 2 s ∧
    AddsTo (.adsWI p imm) .word p imm 4 s ∧
    AddsTo (.adsBR p q) .byte p (s.xr q .byte) 2 s ∧
    AddsTo (.adsBI p b) .byte p b 4 s ∧
    AddsTo (.adqWU p n) .word p (n.setWidth 16) 2 s ∧
    AddsTo (.adqWS p n) .word p (n.signExtend 16) 2 s ∧
    AddsTo (.adqBU p n) .byte p (n.setWidth 8) 2 s ∧
    AddsTo (.adqBS p n) .byte p (n.signExtend 8) 2 s

/-- sub, sbq and sbs complete, write the wrapped difference and the four flags, and change nothing else. Rests on
40_arithmetic.md section 3 (sub, sbq, sbs: pseudocode and flags), 90_conflicts.md C3, C10. -/
def Obligations.SubtractionsWriteDifferenceAndFlags : Prop :=
  ∀ (s : State) (p q : Reg) (n : Nibble) (imm : Word) (b : Byte),
    SubtractsFrom (.subWR p q) .word p (s.xr q .word) 2 s ∧
    SubtractsFrom (.subWI p imm) .word p imm 4 s ∧
    SubtractsFrom (.subBR p q) .byte p (s.xr q .byte) 2 s ∧
    SubtractsFrom (.subBI p b) .byte p b 4 s ∧
    SubtractsFrom (.sbsWR p q) .word p (s.xr q .word) 2 s ∧
    SubtractsFrom (.sbsWI p imm) .word p imm 4 s ∧
    SubtractsFrom (.sbsBR p q) .byte p (s.xr q .byte) 2 s ∧
    SubtractsFrom (.sbsBI p b) .byte p b 4 s ∧
    SubtractsFrom (.sbqWU p n) .word p (n.setWidth 16) 2 s ∧
    SubtractsFrom (.sbqWS p n) .word p (n.signExtend 16) 2 s ∧
    SubtractsFrom (.sbqBU p n) .byte p (n.setWidth 8) 2 s ∧
    SubtractsFrom (.sbqBS p n) .byte p (n.signExtend 8) 2 s

/-- mul completes with the low W bits of the unsigned product; C and V say that it did not fit. Rests on
40_arithmetic.md section 4 (mul: pseudocode and flags). -/
def Obligations.MulWritesLowProduct : Prop :=
  ∀ (s : State) (p q : Reg) (imm : Word) (b : Byte),
    MultipliesUnsigned (.mulWR p q) .word p (s.xr q .word) 2 s ∧
    MultipliesUnsigned (.mulWI p imm) .word p imm 4 s ∧
    MultipliesUnsigned (.mulBR p q) .byte p (s.xr q .byte) 2 s ∧
    MultipliesUnsigned (.mulBI p b) .byte p b 4 s

/-- mls completes with the same low bits; C and V say that the signed product did not fit. Rests on 40_arithmetic.md
section 4 (mls: pseudocode and flags). -/
def Obligations.MlsWritesLowSignedProduct : Prop :=
  ∀ (s : State) (p q : Reg) (imm : Word) (b : Byte),
    MultipliesSigned (.mlsWR p q) .word p (s.xr q .word) 2 s ∧
    MultipliesSigned (.mlsWI p imm) .word p imm 4 s ∧
    MultipliesSigned (.mlsBR p q) .byte p (s.xr q .byte) 2 s ∧
    MultipliesSigned (.mlsBI p b) .byte p b 4 s

/-- div by a non-zero divisor completes with the unsigned floor quotient; V and C are cleared. Rests on
40_arithmetic.md section 5 (div: pseudocode and flags). -/
def Obligations.DivWritesFloorQuotient : Prop :=
  ∀ (s : State) (p q : Reg) (imm : Word) (b : Byte),
    (s.xr q .word ≠ 0#16 → DividesUnsigned (.divWR p q) .word p (s.xr q .word) 2 s) ∧
    (imm ≠ 0#16 → DividesUnsigned (.divWI p imm) .word p imm 4 s) ∧
    (s.xr q .byte ≠ 0#8 → DividesUnsigned (.divBR p q) .byte p (s.xr q .byte) 2 s) ∧
    (b ≠ 0#8 → DividesUnsigned (.divBI p b) .byte p b 4 s)

/-- dvs by a non-zero divisor completes with the signed quotient rounded toward zero. Rests on 40_arithmetic.md
section 5 (dvs: pseudocode and flags). -/
def Obligations.DvsWritesTruncatedQuotient : Prop :=
  ∀ (s : State) (p q : Reg) (imm : Word) (b : Byte),
    (s.xr q .word ≠ 0#16 → DividesSigned (.dvsWR p q) .word p (s.xr q .word) 2 s) ∧
    (imm ≠ 0#16 → DividesSigned (.dvsWI p imm) .word p imm 4 s) ∧
    (s.xr q .byte ≠ 0#8 → DividesSigned (.dvsBR p q) .byte p (s.xr q .byte) 2 s) ∧
    (b ≠ 0#8 → DividesSigned (.dvsBI p b) .byte p b 4 s)

/-- div and dvs by zero raise DivideByZero. Rests on 40_arithmetic.md section 5 (DivideByZero), 60_exceptions.md
section 1 (R181, row DivideByZero). -/
def Obligations.ZeroDivisorFaults : Prop :=
  ∀ (s : State) (p q : Reg),
    (s.xr q .word = 0#16 → exec (.divWR p q) s = .fault (.divideByZero s.pc)) ∧
    exec (.divWI p 0#16) s = .fault (.divideByZero s.pc) ∧
    (s.xr q .byte = 0#8 → exec (.divBR p q) s = .fault (.divideByZero s.pc)) ∧
    exec (.divBI p 0#8) s = .fault (.divideByZero s.pc) ∧
    (s.xr q .word = 0#16 → exec (.dvsWR p q) s = .fault (.divideByZero s.pc)) ∧
    exec (.dvsWI p 0#16) s = .fault (.divideByZero s.pc) ∧
    (s.xr q .byte = 0#8 → exec (.dvsBR p q) s = .fault (.divideByZero s.pc)) ∧
    exec (.dvsBI p 0#8) s = .fault (.divideByZero s.pc)

/-- neg completes with the two's complement negation and writes no flag. Rests on 40_arithmetic.md section 6 (neg). -/
def Obligations.NegWritesNegationAndNoFlag : Prop :=
  ∀ (s : State) (p : Reg),
    Completes (.negW p) s (fun t => RegisterResult .word p (- s.xr p .word) 2 s t ∧ t.flags = s.flags) ∧
    Completes (.negB p) s (fun t => RegisterResult .byte p (- s.xr p .byte) 2 s t ∧ t.flags = s.flags)

/-- and, or, xor and not complete with the bitwise result, N and Z of it, V and C cleared. Rests on
41_logic_shift.md section 1 (and, or, xor, not, and their flags). -/
def Obligations.BitwiseWriteResultAndClearVC : Prop :=
  ∀ (s : State) (p q : Reg) (imm : Word) (b : Byte),
    LogicTo (.andWR p q) .word p (s.xr p .word &&& s.xr q .word) 2 s ∧
    LogicTo (.andWI p imm) .word p (s.xr p .word &&& imm) 4 s ∧
    LogicTo (.andBR p q) .byte p (s.xr p .byte &&& s.xr q .byte) 2 s ∧
    LogicTo (.andBI p b) .byte p (s.xr p .byte &&& b) 4 s ∧
    LogicTo (.orWR p q) .word p (s.xr p .word ||| s.xr q .word) 2 s ∧
    LogicTo (.orWI p imm) .word p (s.xr p .word ||| imm) 4 s ∧
    LogicTo (.orBR p q) .byte p (s.xr p .byte ||| s.xr q .byte) 2 s ∧
    LogicTo (.orBI p b) .byte p (s.xr p .byte ||| b) 4 s ∧
    LogicTo (.xorWR p q) .word p (s.xr p .word ^^^ s.xr q .word) 2 s ∧
    LogicTo (.xorWI p imm) .word p (s.xr p .word ^^^ imm) 4 s ∧
    LogicTo (.xorBR p q) .byte p (s.xr p .byte ^^^ s.xr q .byte) 2 s ∧
    LogicTo (.xorBI p b) .byte p (s.xr p .byte ^^^ b) 4 s ∧
    LogicTo (.notW p) .word p (~~~ s.xr p .word) 2 s ∧
    LogicTo (.notB p) .byte p (~~~ s.xr p .byte) 2 s

/-- shl completes with the shifted value; C says that a 1 bit left at the top; N, V and Z stay. Rests on
41_logic_shift.md section 2 (shl: pseudocode and flags). -/
def Obligations.ShlWritesShiftAndLostBits : Prop :=
  ∀ (s : State) (p : Reg) (n : Nibble),
    ShiftsLeft (.shlW p n) .word p n.toNat s ∧
    ShiftsLeft (.shlB p n) .byte p n.toNat s

/-- shr completes with the logically shifted value; C says that a 1 bit left at the bottom. Rests on
41_logic_shift.md section 2 (shr: pseudocode and flags), 90_conflicts.md C2. -/
def Obligations.ShrWritesShiftAndLostBits : Prop :=
  ∀ (s : State) (p : Reg) (n : Nibble),
    ShiftsRight (.shrW p n) .word p n.toNat s ∧
    ShiftsRight (.shrB p n) .byte p n.toNat s

/-- rol and ror complete with the rotation by the count modulo the width and write no flag. Rests on
41_logic_shift.md section 3 (rol, ror). -/
def Obligations.RollsRotateWithinWidth : Prop :=
  ∀ (s : State) (p : Reg) (n : Nibble),
    QuietTo (.rolW p n) .word p ((s.xr p .word).rotateLeft n.toNat) 2 s ∧
    QuietTo (.rolB p n) .byte p ((s.xr p .byte).rotateLeft n.toNat) 2 s ∧
    QuietTo (.rorW p n) .word p ((s.xr p .word).rotateRight n.toNat) 2 s ∧
    QuietTo (.rorB p n) .byte p ((s.xr p .byte).rotateRight n.toNat) 2 s

/-- swp completes with the two halves of the operand exchanged and writes no flag. Rests on 41_logic_shift.md
section 4 (swp). -/
def Obligations.SwpExchangesHalves : Prop :=
  ∀ (s : State) (p : Reg),
    QuietTo (.swpW p) .word p ((s.x p).extractLsb' 0 8 ++ (s.x p).extractLsb' 8 8) 2 s ∧
    QuietTo (.swpB p) .byte p ((s.x p).extractLsb' 0 4 ++ (s.x p).extractLsb' 4 4) 2 s

/-- cpy completes with q's value in p, N and Z of it, V and C cleared. Rests on 42_data_move.md section 1 (cpy). -/
def Obligations.CpyCopiesAndSetsFlags : Prop :=
  ∀ (s : State) (p q : Reg),
    LogicTo (.cpyW p q) .word p (s.xr q .word) 2 s ∧
    LogicTo (.cpyB p q) .byte p (s.xr q .byte) 2 s

/-- clr completes with zero in p and the flags N V Z C at 0 0 1 0. Rests on 42_data_move.md section 1 (clr). -/
def Obligations.ClrZeroesAndSetsZ : Prop :=
  ∀ (s : State) (p : Reg),
    Completes (.clrW p) s (fun t => RegisterResult .word p 0#16 2 s t ∧ t.flags = ⟨false, false, true, false⟩) ∧
    Completes (.clrB p) s (fun t => RegisterResult .byte p 0#8 2 s t ∧ t.flags = ⟨false, false, true, false⟩)

/-- stq completes with the quick value in p and Z of it; N, V and C are left to the free values. Rests on
42_data_move.md section 1 (stq), 10_state.md section 4 (draw). -/
def Obligations.StqSetsQuickValueAndZ : Prop :=
  ∀ (s : State) (p : Reg) (n : Nibble),
    SetsQuick (.stqW p n) .word p n s ∧
    SetsQuick (.stqB p n) .byte p n s

/-- exc completes with the two registers exchanged and all four flags cleared. Rests on 42_data_move.md section 1
(exc). -/
def Obligations.ExcExchangesRegisters : Prop :=
  ∀ (s : State) (p q : Reg),
    Exchanges (.excW p q) .word p q s ∧
    Exchanges (.excB p q) .byte p q s

/-- l completes with the memory operand in p, N and Z of it, V and C unchanged. Rests on 42_data_move.md section 2
(l), 20_memory.md section 2. -/
def Obligations.LoadsReadMemoryIntoRegister : Prop :=
  ∀ (s : State) (p q : Reg) (imm : Word),
    LoadsTo (.lWR p q) .word p (s.mem.readByte (s.x q + 1#16) ++ s.mem.readByte (s.x q)) 2 s ∧
    LoadsTo (.lWA p imm) .word p (s.mem.readByte (imm + 1#16) ++ s.mem.readByte imm) 4 s ∧
    LoadsTo (.lBR p q) .byte p (s.mem.readByte (s.x q)) 2 s ∧
    LoadsTo (.lBA p imm) .byte p (s.mem.readByte imm) 4 s

/-- s completes with the register's bytes at the address and changes nothing else. Rests on 42_data_move.md section
2 (s), 20_memory.md section 2, 90_conflicts.md C4. -/
def Obligations.StoresWriteRegisterToMemory : Prop :=
  ∀ (s : State) (p q : Reg) (imm : Word),
    StoresTo (.sWR p q) .word (s.x p) (s.xr q .word) 2 s ∧
    StoresTo (.sWA imm q) .word imm (s.xr q .word) 4 s ∧
    StoresTo (.sBR p q) .byte (s.x p) (s.xr q .byte) 2 s ∧
    StoresTo (.sBA imm q) .byte imm (s.xr q .byte) 4 s

/-- psh completes with sp lowered by the size and the value at the new sp. Rests on 42_data_move.md section 3 (stack
discipline, psh). -/
def Obligations.PushesStoreBelowStackTop : Prop :=
  ∀ (s : State) (p : Reg) (imm : Word) (b : Byte),
    Pushes (.pshWR p) .word (s.xr p .word) 2 s ∧
    Pushes (.pshWI imm) .word imm 4 s ∧
    Pushes (.pshBR p) .byte (s.xr p .byte) 2 s ∧
    Pushes (.pshBI b) .byte b 2 s

/-- pop completes with the value at sp in p, sp raised by the size, N and Z of the value. Rests on 42_data_move.md
section 3 (stack discipline, pop). -/
def Obligations.PopsReadStackTop : Prop :=
  ∀ (s : State) (p : Reg),
    Pops (.popW p) .word p (s.mem.readByte (s.sp + 1#16) ++ s.mem.readByte s.sp) s ∧
    Pops (.popB p) .byte p (s.mem.readByte s.sp) s

/-- A pop after a push of the same size gives the pushed value and the old sp back. Rests on 42_data_move.md section
3 (stack discipline). -/
def Obligations.PopUndoesPush : Prop :=
  ∀ (s : State) (p r : Reg), s.mem.wf →
    (∃ t u, exec (.pshWR p) s = .next t ∧ exec (.popW r) t = .next u ∧ u.sp = s.sp ∧ u.x r = s.x p) ∧
    (∃ t u, exec (.pshBR p) s = .next t ∧ exec (.popB r) t = .next u ∧ u.sp = s.sp ∧ u.xr r .byte = s.xr p .byte)

/-- tsr, trs, tpr and trp complete with all 16 bits moved and nothing else changed. Rests on 42_data_move.md section
4 (tsr, trs, tpr, trp). -/
def Obligations.StackRegisterTransfers : Prop :=
  ∀ (s : State) (p : Reg),
    QuietTo (.tsr p) .word p s.sp 2 s ∧
    QuietTo (.tpr p) .word p s.pcs 2 s ∧
    Completes (.trs p) s (fun t => t.sp = s.x p ∧ t.pcs = s.pcs ∧ t.pc = s.pc + 2#16 ∧ t.flags = s.flags ∧
      RegsKept s t ∧ SystemKept s t ∧ MemoryKept s t) ∧
    Completes (.trp p) s (fun t => t.pcs = s.x p ∧ t.sp = s.sp ∧ t.pc = s.pc + 2#16 ∧ t.flags = s.flags ∧
      RegsKept s t ∧ SystemKept s t ∧ MemoryKept s t)

/-- cmp completes, writes the flags of p - q and nothing else but pc. Rests on 43_compare.md (cmp), 40_arithmetic.md
section 1 (SubFlags). -/
def Obligations.CmpWritesFlagsAlone : Prop :=
  ∀ (s : State) (p q : Reg) (n : Nibble) (imm : Word) (b : Byte),
    Compares (.cmpWR p q) .word p (s.xr q .word) 2 s ∧
    Compares (.cmpWI p imm) .word p imm 4 s ∧
    Compares (.cmpWQ p n) .word p (n.setWidth 16) 2 s ∧
    Compares (.cmpBR p q) .byte p (s.xr q .byte) 2 s ∧
    Compares (.cmpBI p b) .byte p b 4 s ∧
    Compares (.cmpBQ p n) .byte p (n.setWidth 8) 2 s

/-- dcp completes with p - 1 in p and the flags of comparing that with q, read after the write. Rests on
43_compare.md (dcp), 92_eei_decisions.md D28. -/
def Obligations.DcpDecrementsThenCompares : Prop :=
  ∀ (s : State) (p q : Reg) (imm : Word) (b : Byte),
    Decreases (.dcpWI p imm) .word p imm 4 s ∧
    Decreases (.dcpBI p b) .byte p b 4 s ∧
    Decreases (.dcpWR p q) .word p (if q = p then s.xr p .word - 1#16 else s.xr q .word) 2 s ∧
    Decreases (.dcpBR p q) .byte p (if q = p then s.xr p .byte - 1#8 else s.xr q .byte) 2 s

/-- zcp completes and writes Z alone. Rests on 43_compare.md (zcp). -/
def Obligations.ZcpWritesZAlone : Prop :=
  ∀ (s : State) (p : Reg),
    TestsZero (.zcpW p) .word p s ∧
    TestsZero (.zcpB p) .byte p s

/-- bra completes at the address of the bra plus the offset, and changes pc alone. Rests on 44_branch.md section 2
(bra), 30_encoding.md section 4 (R61, bra $18). -/
def Obligations.BraAlwaysJumps : Prop :=
  ∀ (s : State) (imm : Word) (b : Byte),
    Completes .braR s (ControlOnly (s.pc + s.x 0) s) ∧
    Completes (.braL imm) s (ControlOnly (s.pc + imm) s) ∧
    Completes (.braS b) s (ControlOnly (s.pc + b.signExtend 16) s) ∧
    exec (.braS 0#8) s = .next s

/-- Each conditional branch completes, taken exactly on its condition of R153, and changes pc alone. Formalises
R153. -/
def Obligations.ConditionalBranchesTestTheirFlags : Prop :=
  (∀ (s : State) (imm : Word) (b : Byte),
    Completes (.braL imm) s (ControlOnly (s.pc + imm) s) ∧
    Completes (.braS b) s (ControlOnly (s.pc + b.signExtend 16) s) ∧
    Completes .braR s (ControlOnly (s.pc + s.x 0) s) ∧
    BranchesOn (.beqL imm) (.beqS b) (fun f => f.z) imm b s ∧
    BranchesOn (.bfeL imm) (.bfeS b) (fun f => f.z) imm b s ∧
    BranchesOn (.bftL imm) (.bftS b) (fun f => f.z && f.c) imm b s ∧
    BranchesOn (.bgeL imm) (.bgeS b) (fun _ => true) imm b s ∧
    BranchesOn (.bgtL imm) (.bgtS b) (fun f => (f.n == f.v) && !f.z) imm b s ∧
    BranchesOn (.bleL imm) (.bleS b) (fun f => f.z || f.n != f.v) imm b s ∧
    BranchesOn (.bltL imm) (.bltS b) (fun f => f.n != f.v) imm b s ∧
    BranchesOn (.bmeL imm) (.bmeS b) (fun f => f.z || !f.c) imm b s ∧
    BranchesOn (.bmtL imm) (.bmtS b) (fun f => !f.z && !f.c) imm b s ∧
    BranchesOn (.bneL imm) (.bneS b) (fun f => !f.z) imm b s ∧
    BranchesOn (.bnzL imm) (.bnzS b) (fun f => !f.z) imm b s ∧
    BranchesOn (.brcL imm) (.brcS b) (fun f => f.c) imm b s ∧
    BranchesOn (.brnL imm) (.brnS b) (fun f => f.n) imm b s ∧
    BranchesOn (.broL imm) (.broS b) (fun f => f.v) imm b s ∧
    BranchesOn (.brpL imm) (.brpS b) (fun f => !f.n) imm b s ∧
    BranchesOn (.brzL imm) (.brzS b) (fun f => f.z) imm b s) ∧
    branchConditions.map (fun cond => (allFlags.filter cond).length) =
      [8, 8, 4, 16, 4, 12, 8, 12, 4, 8, 8, 8, 8, 8, 8, 8] ∧
    ∀ (imm : Word) (b : Byte),
      (longBranches imm).map (fun i => (encode i).head?) = longBranchOpcodes.map some ∧
      (shortBranches b).map (fun i => (encode i).head?) = shortBranchOpcodes.map some ∧
      (encode .braR).head? = some 0x18#8

/-- After cmp of p with q each branch is taken exactly on the relation R151 gives it. Formalises R151. -/
def Obligations.BranchesAfterCompareOrder : Prop :=
  ∀ (s t : State) (p q : Reg) (n : Nibble) (imm : Word) (b : Byte) (far : Word) (near : Byte),
    (exec (.cmpWR p q) s = .next t → BranchesByOrder (s.xr p .word) (s.xr q .word) far near t) ∧
    (exec (.cmpWI p imm) s = .next t → BranchesByOrder (s.xr p .word) imm far near t) ∧
    (exec (.cmpWQ p n) s = .next t → BranchesByOrder (s.xr p .word) (n.setWidth 16) far near t) ∧
    (exec (.cmpBR p q) s = .next t → BranchesByOrder (s.xr p .byte) (s.xr q .byte) far near t) ∧
    (exec (.cmpBI p b) s = .next t → BranchesByOrder (s.xr p .byte) b far near t) ∧
    (exec (.cmpBQ p n) s = .next t → BranchesByOrder (s.xr p .byte) (n.setWidth 8) far near t)

/-- jmp completes with pc at its operand and changes nothing else. Rests on 45_jump_call.md (jmp),
92_eei_decisions.md D35. -/
def Obligations.JmpSetsProgramCounter : Prop :=
  ∀ (s : State) (p : Reg) (imm : Word),
    Completes (.jmpR p) s (ControlOnly (s.x p) s) ∧
    Completes (.jmpA imm) s (ControlOnly imm s)

/-- jsr completes with the next instruction's address on the PC Stack and pc at its operand. Rests on
45_jump_call.md (jsr). -/
def Obligations.JsrPushesReturnAddress : Prop :=
  ∀ (s : State) (p : Reg) (imm : Word),
    Completes (.jsrR p) s (fun t => Calls (s.x p) 2 s t ∧ t.flags = s.flags ∧ t.prot = s.prot) ∧
    Completes (.jsrA imm) s (fun t => Calls imm 4 s t ∧ t.flags = s.flags ∧ t.prot = s.prot)

/-- ret and rti complete with pc popped from the PC Stack and restore nothing else. Rests on 45_jump_call.md (ret),
46_system.md (rti), 60_exceptions.md section 4 (trap return). -/
def Obligations.RetAndRtiPopProgramCounter : Prop :=
  ∀ s : State,
    Completes .ret s (Returns s) ∧
    Completes .rti s (Returns s)

/-- A ret after a jsr continues after the jsr with pcs as before. Rests on 45_jump_call.md (jsr, ret). -/
def Obligations.ReturnUndoesCall : Prop :=
  ∀ (s : State) (p : Reg) (imm : Word), s.mem.wf →
    (∃ t u, exec (.jsrR p) s = .next t ∧ exec .ret t = .next u ∧ u.pc = s.pc + 2#16 ∧ u.pcs = s.pcs ∧ u.sp = s.sp ∧
      u.flags = s.flags ∧ u.prot = s.prot ∧ RegsKept s u) ∧
    (∃ t u, exec (.jsrA imm) s = .next t ∧ exec .ret t = .next u ∧ u.pc = s.pc + 4#16 ∧ u.pcs = s.pcs ∧ u.sp = s.sp ∧
      u.flags = s.flags ∧ u.prot = s.prot ∧ RegsKept s u)

/-- ent outside Protected Mode enters it, clears the flags and calls the interrupt; inside it faults. Rests on
46_system.md (ent), 60_exceptions.md section 4 (interrupt call). -/
def Obligations.EntEntersProtectedModeAndCalls : Prop :=
  ∀ s : State,
    (s.prot = false → Completes .ent s (fun t => Calls Config.enterProtVector 2 s t ∧ t.prot = true ∧
      t.flags = ⟨false, false, false, false⟩)) ∧
    (s.prot = true → exec .ent s = .fault (.protectionViolation s.pc))

/-- lve in either mode leaves Protected Mode, clears the flags and calls the interrupt. Rests on 46_system.md (lve),
60_exceptions.md section 4 (interrupt call). -/
def Obligations.LveLeavesProtectedModeAndCalls : Prop :=
  ∀ s : State,
    Completes .lve s (fun t => Calls Config.leaveProtVector 2 s t ∧ t.prot = false ∧
      t.flags = ⟨false, false, false, false⟩)

/-- io drives the pins with a value of 0 to 3 outside Protected Mode; otherwise it faults, protection first. Rests
on 46_system.md (io), 60_exceptions.md section 1 (fault priority). -/
def Obligations.IoDrivesPinsOrFaults : Prop :=
  ∀ (s : State) (n : Nibble),
    (s.prot = false → n.toNat ≤ 3 → Completes (.io n) s (fun t => t.iopins.toNat = n.toNat ∧ t.pc = s.pc + 2#16 ∧
      t.flags = s.flags ∧ t.sp = s.sp ∧ t.pcs = s.pcs ∧ t.prot = s.prot ∧ t.draws = s.draws ∧ RegsKept s t ∧
      MemoryKept s t)) ∧
    (s.prot = true → exec (.io n) s = .fault (.protectionViolation s.pc)) ∧
    (s.prot = false → 3 < n.toNat → exec (.io n) s = .fault (.illegalInstruction s.pc))

/-- An rti after the call of ent or lve continues after it, in the mode the instruction left. Rests on
60_exceptions.md section 4 (interrupt call, trap return), 46_system.md (rti). -/
def Obligations.RtiReturnsAfterInterruptCall : Prop :=
  ∀ s : State, s.mem.wf →
    (s.prot = false → ∃ t u, exec .ent s = .next t ∧ exec .rti t = .next u ∧ u.pc = s.pc + 2#16 ∧ u.pcs = s.pcs ∧
      u.prot = true ∧ u.flags = ⟨false, false, false, false⟩ ∧ u.sp = s.sp ∧ RegsKept s u) ∧
    (∃ t u, exec .lve s = .next t ∧ exec .rti t = .next u ∧ u.pc = s.pc + 2#16 ∧ u.pcs = s.pcs ∧
      u.prot = false ∧ u.flags = ⟨false, false, false, false⟩ ∧ u.sp = s.sp ∧ RegsKept s u)

/-- prot changes only by reset, ent (from 0 to 1) and lve (to 0). Formalises R187. -/
def Obligations.ModeChangesOnlyByEntAndLve : Prop :=
  (∀ r : ResetParams, (State.resetFrom r).prot = false) ∧
    ∀ s t : State, step s = .next t →
      (s.fetch = .ok .ent ∧ s.prot = false ∧ t.prot = true) ∨ (s.fetch = .ok .lve ∧ t.prot = false) ∨
        (s.fetch ≠ .ok .ent ∧ s.fetch ≠ .ok .lve ∧ t.prot = s.prot)

/-- The pins change only by io outside Protected Mode; a protected run without lve never changes them. Rests on
10_state.md section 5 (iopins), 60_exceptions.md section 3 (protected mode). -/
def Obligations.ProtectedRunsKeepPins : Prop :=
  (∀ s t : State, step s = .next t → t.iopins ≠ s.iopins → s.prot = false ∧ ∃ n, s.fetch = .ok (.io n)) ∧
    ∀ (k : Nat) (s t : State), s.prot = true → RunsThrough (fun u => u.fetch ≠ .ok .lve) k s t →
      t.prot = true ∧ t.iopins = s.iopins

/-- Memory changes only by s, psh, jsr, ent and lve, and only in the bytes each of them stores. Rests on
20_memory.md section 1 (R31, the instructions that reach memory). -/
def Obligations.MemoryChangesOnlyWhereStored : Prop :=
  ∀ (i : Instr) (s t : State), exec i s = .next t →
    match storesTo i s with
    | none => MemoryKept s t
    | some (w, addr) => MemoryKeptBut w addr s t

/-- sp moves only by trs, psh and pop; pcs only by trp, jsr, ret, rti, ent and lve. Rests on 10_state.md section 5
(sp, pcs). -/
def Obligations.StackRegistersMoveOnlyByTheirInstructions : Prop :=
  ∀ (i : Instr) (s t : State), exec i s = .next t →
    (movesSp i = false → t.sp = s.sp) ∧ (movesPcs i = false → t.pcs = s.pcs)

/-- Every instruction writes the flags its row of R25 says, and no others. Formalises R25. -/
def Obligations.FlagsFollowTheirTables : Prop :=
  ∀ (i : Instr) (s t : State), exec i s = .next t → (flagTable i).Holds s.flags t.flags

/-- A step faults exactly on the causes of R181, with that fault and pc, and is never refused. Formalises R181. -/
def Obligations.FaultsAreExactlyTheTable : Prop :=
  (∀ (s : State) (f : Fault), step s = .fault f ↔ FaultCause s f) ∧
    (∀ (s : State) (r : Refusal), step s ≠ .refused r)

/-- Every instruction but ent and io does the same in both modes. Rests on 60_exceptions.md section 3 (R186, modes). -/
def Obligations.ModeMattersOnlyToEntAndIo : Prop :=
  ∀ (i : Instr) (s : State) (m : Bool), i ≠ .ent → (∀ n, i ≠ .io n) →
    (i = .lve → exec i (s.setProt m) = exec i s) ∧
    (i ≠ .lve → exec i (s.setProt m) = withMode m (exec i s)) ∧
    exec .ent (s.setProt true) = .fault (.protectionViolation s.pc) ∧
    (∀ n, exec (.io n) (s.setProt true) = .fault (.protectionViolation s.pc))

end
end

