-- ==== Sys2Proof/Laws/Decode.lean ====
section
/-! SUPPORT. The fields of an instruction (R46 to R48 of 30_encoding.md), taken apart and put together, and the one step
from a decoded opcode byte to its row. -/

namespace Sys2Proof

/-- The operand-1 field of an operand byte put together from two (R46). -/
@[simp] theorem hiNibble_append (a b : Nibble) : hiNibble (a ++ b) = a := by revert a b; decide

/-- The operand-2 field of an operand byte put together from two (R46). -/
@[simp] theorem loNibble_append (a b : Nibble) : loNibble (a ++ b) = b := by revert a b; decide

/-- An operand byte is its two fields (R46). -/
theorem nibbles_append (b : Byte) : hiNibble b ++ loNibble b = b := by revert b; decide

/-- A register number read from the field that selects it (R10). -/
@[simp] theorem regOf_nibbleOf (r : Reg) : regOf (nibbleOf r) = r := rfl

/-- The field that selects the register read from it (R10). -/
@[simp] theorem nibbleOf_regOf (n : Nibble) : nibbleOf (regOf n) = n := rfl

/-- An extension word put together from its two bytes (R48). -/
@[simp] theorem wordOf_bytes (w : Word) : wordOf (loByte w) (hiByte w) = w := by
  refine BitVec.eq_of_getLsbD_eq fun i hi => ?_
  simp only [wordOf, loByte, hiByte, BitVec.getLsbD_append, BitVec.getLsbD_extractLsb']
  by_cases h : i < 8
  · simp [h]
  · have h8 : i - 8 < 8 := by omega
    have hi' : 8 + (i - 8) = i := by omega
    simp [h, h8, hi']

/-- The low byte of an extension word (R48). -/
@[simp] theorem loByte_wordOf (lo hi : Byte) : loByte (wordOf lo hi) = lo := by
  refine BitVec.eq_of_getLsbD_eq fun i h => ?_
  simp only [wordOf, loByte, BitVec.getLsbD_append, BitVec.getLsbD_extractLsb']
  simp [h]

/-- The high byte of an extension word (R48). -/
@[simp] theorem hiByte_wordOf (lo hi : Byte) : hiByte (wordOf lo hi) = hi := by
  refine BitVec.eq_of_getLsbD_eq fun i h => ?_
  simp only [wordOf, hiByte, BitVec.getLsbD_append, BitVec.getLsbD_extractLsb']
  have h8 : ¬ 8 + i < 8 := by omega
  simp [h, h8]

/-- An assigned opcode byte is decoded by its row (R50). -/
theorem decode_cons {op : Byte} {row : OpcodeRow} {bytes : List Byte} (h : opcodeRow op.toNat = some row) :
    decode (op :: bytes) = readOperands op row bytes := by simp [decode, h]

/-- An unassigned opcode byte is rejected whatever follows it (R52). -/
theorem decode_unassigned {op : Byte} {bytes : List Byte} (h : opcodeRow op.toNat = none) :
    decode (op :: bytes) = .error (.unassignedOpcode op) := by simp [decode, h]

/-- Checked bytes are accepted only where every printed-zero bit is 0 (R53). -/
theorem zeroChecked_ok {op : Byte} {zeros : Bool} {i j : Instr} {rest rest' : List Byte}
    (h : zeroChecked op zeros i rest = .ok (j, rest')) : zeros = true ∧ i = j ∧ rest = rest' := by
  unfold zeroChecked at h
  split at h
  · next hz => cases h; exact ⟨hz, rfl, rfl⟩
  · cases h

end Sys2Proof
end

