-- ==== Sys2Proof/Laws/Memory.lean ====
section
/-! SUPPORT. The laws of memory (R32, R33 of 20_memory.md): what a write changes, what it leaves, and that every
operation keeps the canonical form. -/

namespace Sys2Proof.Machine

/-! ### Cells -/

/-- No address below a canonical list's start is listed. -/
theorem lookupCell_below {cells : List Host.Cell} {lo a : Nat} (h : cellsFrom lo cells) (ha : a < lo) :
    lookupCell cells a = Memory.unlisted := by
  induction cells generalizing lo with
  | nil => rfl
  | cons cell rest ih =>
    simp only [cellsFrom, Bool.and_eq_true, decide_eq_true_eq] at h
    rw [lookupCell, if_neg (by omega)]
    exact ih h.2 (by omega)

/-- A canonical list may start lower. -/
theorem cellsFrom_mono {cells : List Host.Cell} {lo lo' : Nat} (h : cellsFrom lo cells) (hlo : lo' ≤ lo) :
    cellsFrom lo' cells := by
  cases cells with
  | nil => rfl
  | cons cell rest =>
    simp only [cellsFrom, Bool.and_eq_true, decide_eq_true_eq] at h ⊢
    exact ⟨⟨⟨by omega, h.1.1.2⟩, h.1.2⟩, h.2⟩

/-- A cell in front of a list answers for its own address. -/
theorem lookupCell_consCell_same {rest : List Host.Cell} {lo a : Nat} (v : Byte) (h : cellsFrom lo rest) (ha : a < lo) :
    lookupCell (consCell a v rest) a = v := by
  unfold consCell
  split
  · next hv => rw [lookupCell_below h ha, hv]
  · rw [lookupCell, if_pos rfl]

/-- A cell in front of a list answers for no other address. -/
theorem lookupCell_consCell_other (rest : List Host.Cell) {a c : Nat} (v : Byte) (h : c ≠ a) :
    lookupCell (consCell a v rest) c = lookupCell rest c := by
  unfold consCell
  split
  · rfl
  · rw [lookupCell, if_neg h]

/-- A cell in front of a canonical list keeps the form. -/
theorem cellsFrom_consCell {rest : List Host.Cell} {lo a : Nat} (v : Byte) (h : cellsFrom (a + 1) rest) (hlo : lo ≤ a)
    (ha : a < 65536) : cellsFrom lo (consCell a v rest) := by
  unfold consCell
  split
  · exact cellsFrom_mono h (by omega)
  · next hv => simp [cellsFrom, hlo, ha, hv, h]

/-- The byte stored at an address is the byte there. -/
theorem lookupCell_storeCell_same {cells : List Host.Cell} {lo : Nat} (a : Nat) (v : Byte) (h : cellsFrom lo cells) :
    lookupCell (storeCell cells a v) a = v := by
  induction cells generalizing lo with
  | nil => exact lookupCell_consCell_same v (lo := a + 1) rfl (by omega)
  | cons cell rest ih =>
    obtain ⟨b, x⟩ := cell
    simp only [cellsFrom, Bool.and_eq_true, decide_eq_true_eq] at h
    simp only [storeCell]
    split
    · next hlt =>
      have hb : cellsFrom b ((b, x) :: rest) := by simp [cellsFrom, h.1.1.2, h.1.2, h.2]
      exact lookupCell_consCell_same v hb hlt
    · split
      · next heq => subst heq; exact lookupCell_consCell_same v h.2 (by omega)
      · next hne => rw [lookupCell, if_neg hne]; exact ih h.2

/-- A byte stored at an address leaves every other address. -/
theorem lookupCell_storeCell_other (cells : List Host.Cell) {a c : Nat} (v : Byte) (h : c ≠ a) :
    lookupCell (storeCell cells a v) c = lookupCell cells c := by
  induction cells with
  | nil => exact lookupCell_consCell_other [] v h
  | cons cell rest ih =>
    obtain ⟨b, x⟩ := cell
    simp only [storeCell]
    split
    · exact lookupCell_consCell_other _ v h
    · split
      · next heq => subst heq; rw [lookupCell_consCell_other _ v h, lookupCell, if_neg h]
      · rw [lookupCell, lookupCell, ih]

/-- A store keeps the canonical form. -/
theorem cellsFrom_storeCell {cells : List Host.Cell} {lo a : Nat} (v : Byte) (h : cellsFrom lo cells) (hlo : lo ≤ a)
    (ha : a < 65536) : cellsFrom lo (storeCell cells a v) := by
  induction cells generalizing lo with
  | nil => exact cellsFrom_consCell v rfl hlo ha
  | cons cell rest ih =>
    obtain ⟨b, x⟩ := cell
    simp only [cellsFrom, Bool.and_eq_true, decide_eq_true_eq] at h
    simp only [storeCell]
    split
    · next hlt =>
      refine cellsFrom_consCell v ?_ hlo ha
      simp [cellsFrom, h.1.1.2, h.1.2, h.2]
      omega
    · split
      · next heq => subst heq; exact cellsFrom_consCell v h.2 hlo ha
      · next hlt hne =>
        simp only [cellsFrom, Bool.and_eq_true, decide_eq_true_eq]
        exact ⟨h.1, ih h.2 (by omega)⟩

/-! ### Bytes and words -/

/-- The empty memory is canonical. -/
theorem Memory.wf_empty : Memory.wf { cells := [] } := rfl

/-- A byte write is read back (R33). -/
theorem Memory.readByte_writeByte_same {m : Memory} (h : m.wf) (a : Word) (v : Byte) :
    (m.writeByte a v).readByte a = v := lookupCell_storeCell_same a.toNat v h

/-- A byte write leaves every other byte (R33). -/
theorem Memory.readByte_writeByte_other (m : Memory) {a c : Word} (v : Byte) (h : c ≠ a) :
    (m.writeByte a v).readByte c = m.readByte c :=
  lookupCell_storeCell_other m.cells v (fun e => h (BitVec.eq_of_toNat_eq e))

/-- A byte write keeps the canonical form. -/
theorem Memory.wf_writeByte {m : Memory} (h : m.wf) (a : Word) (v : Byte) : (m.writeByte a v).wf :=
  cellsFrom_storeCell v h (Nat.zero_le _) a.isLt

/-- An address and the next one differ, wrapping included. -/
theorem Memory.succ_ne (a : Word) : a + 1#16 ≠ a := by
  intro h
  have h1 : (1#16 : Word) = 0#16 := by
    calc (1#16 : Word) = (a + 1#16) - a := by rw [BitVec.add_comm, BitVec.add_sub_cancel]
      _ = 0#16 := by rw [h, BitVec.sub_self]
  exact absurd h1 (by decide)

/-- A word write keeps the canonical form. -/
theorem Memory.wf_writeWord {m : Memory} (h : m.wf) (a v : Word) : (m.writeWord a v).wf :=
  Memory.wf_writeByte (Memory.wf_writeByte h _ _) _ _

/-- The low byte of a word write is at the lower address (R33, R34). -/
theorem Memory.readByte_writeWord_lo {m : Memory} (h : m.wf) (a v : Word) :
    (m.writeWord a v).readByte a = v.extractLsb' 0 8 := by
  rw [Memory.writeWord, Memory.readByte_writeByte_other _ _ (Memory.succ_ne a).symm, Memory.readByte_writeByte_same h]

/-- The high byte of a word write is at the next address (R33, R34). -/
theorem Memory.readByte_writeWord_hi {m : Memory} (h : m.wf) (a v : Word) :
    (m.writeWord a v).readByte (a + 1#16) = v.extractLsb' 8 8 :=
  Memory.readByte_writeByte_same (Memory.wf_writeByte h _ _) _ _

/-- A word write leaves every byte but its two (R33). -/
theorem Memory.readByte_writeWord_other (m : Memory) {a c : Word} (v : Word) (h : c ≠ a) (h' : c ≠ a + 1#16) :
    (m.writeWord a v).readByte c = m.readByte c := by
  rw [Memory.writeWord, Memory.readByte_writeByte_other _ _ h', Memory.readByte_writeByte_other _ _ h]

/-- A word write is read back as a word (R32, R33). -/
theorem Memory.readWord_writeWord {m : Memory} (h : m.wf) (a v : Word) : (m.writeWord a v).readWord a = v := by
  rw [Memory.readWord, Memory.readByte_writeWord_hi h, Memory.readByte_writeWord_lo h]
  exact BitVec.eq_of_getLsbD_eq fun i hi => by
    simp only [BitVec.getLsbD_append, BitVec.getLsbD_extractLsb']
    by_cases h8 : i < 8
    · simp [h8]
    · have : i - 8 < 8 := by omega
      simp [h8, this]; congr 1; omega

/-- A typed write keeps the canonical form. -/
theorem Memory.wf_writeAt {m : Memory} (h : m.wf) (w : Width) (a : Word) (v : BitVec w.bits) : (m.writeAt w a v).wf := by
  cases w
  · exact Memory.wf_writeByte h a v
  · exact Memory.wf_writeWord h a v

/-- A typed write is read back (R32, R33). -/
theorem Memory.readAt_writeAt {m : Memory} (h : m.wf) (w : Width) (a : Word) (v : BitVec w.bits) :
    (m.writeAt w a v).readAt w a = v := by
  cases w
  · exact Memory.readByte_writeByte_same h a v
  · exact Memory.readWord_writeWord h a v

/-- A typed write leaves every byte outside those it stores (R33). -/
theorem Memory.readByte_writeAt_other (m : Memory) (w : Width) {a c : Word} (v : BitVec w.bits) (h : c ≠ a)
    (h' : w = .word → c ≠ a + 1#16) : (m.writeAt w a v).readByte c = m.readByte c := by
  cases w
  · exact Memory.readByte_writeByte_other m v h
  · exact Memory.readByte_writeWord_other m v h (h' rfl)

/-- Bytes loaded from outside keep the canonical form. -/
theorem Memory.wf_writeBytes {m : Memory} (h : m.wf) (a : Word) (bs : List Byte) : (m.writeBytes a bs).wf := by
  induction bs generalizing m a with
  | nil => exact h
  | cons b bs ih => exact ih (Memory.wf_writeByte h a b) _

end Sys2Proof.Machine
end

