-- ==== Sys2Proof/Laws/State.lean ====
section
/-! SUPPORT. One lemma for each field under each state update, so that no proof unfolds a record update. -/

namespace Sys2Proof.Machine

@[simp] theorem State.setPc_regs (s : State) (v : Word) : (s.setPc v).regs = s.regs := rfl
@[simp] theorem State.setPc_pc (s : State) (v : Word) : (s.setPc v).pc = v := rfl
@[simp] theorem State.setPc_flags (s : State) (v : Word) : (s.setPc v).flags = s.flags := rfl
@[simp] theorem State.setPc_sp (s : State) (v : Word) : (s.setPc v).sp = s.sp := rfl
@[simp] theorem State.setPc_pcs (s : State) (v : Word) : (s.setPc v).pcs = s.pcs := rfl
@[simp] theorem State.setPc_prot (s : State) (v : Word) : (s.setPc v).prot = s.prot := rfl
@[simp] theorem State.setPc_iopins (s : State) (v : Word) : (s.setPc v).iopins = s.iopins := rfl
@[simp] theorem State.setPc_mem (s : State) (v : Word) : (s.setPc v).mem = s.mem := rfl
@[simp] theorem State.setPc_draws (s : State) (v : Word) : (s.setPc v).draws = s.draws := rfl
@[simp] theorem State.setPc_x (s : State) (v : Word) (i : Reg) : (s.setPc v).x i = s.x i := rfl
@[simp] theorem State.setPc_xr (s : State) (v : Word) (i : Reg) (w : Width) : (s.setPc v).xr i w = s.xr i w := rfl

@[simp] theorem State.setFlags_regs (s : State) (f : Flags) : (s.setFlags f).regs = s.regs := rfl
@[simp] theorem State.setFlags_pc (s : State) (f : Flags) : (s.setFlags f).pc = s.pc := rfl
@[simp] theorem State.setFlags_flags (s : State) (f : Flags) : (s.setFlags f).flags = f := rfl
@[simp] theorem State.setFlags_sp (s : State) (f : Flags) : (s.setFlags f).sp = s.sp := rfl
@[simp] theorem State.setFlags_pcs (s : State) (f : Flags) : (s.setFlags f).pcs = s.pcs := rfl
@[simp] theorem State.setFlags_prot (s : State) (f : Flags) : (s.setFlags f).prot = s.prot := rfl
@[simp] theorem State.setFlags_iopins (s : State) (f : Flags) : (s.setFlags f).iopins = s.iopins := rfl
@[simp] theorem State.setFlags_mem (s : State) (f : Flags) : (s.setFlags f).mem = s.mem := rfl
@[simp] theorem State.setFlags_draws (s : State) (f : Flags) : (s.setFlags f).draws = s.draws := rfl
@[simp] theorem State.setFlags_x (s : State) (f : Flags) (i : Reg) : (s.setFlags f).x i = s.x i := rfl
@[simp] theorem State.setFlags_xr (s : State) (f : Flags) (i : Reg) (w : Width) : (s.setFlags f).xr i w = s.xr i w := rfl

@[simp] theorem State.setSp_regs (s : State) (v : Word) : (s.setSp v).regs = s.regs := rfl
@[simp] theorem State.setSp_pc (s : State) (v : Word) : (s.setSp v).pc = s.pc := rfl
@[simp] theorem State.setSp_flags (s : State) (v : Word) : (s.setSp v).flags = s.flags := rfl
@[simp] theorem State.setSp_sp (s : State) (v : Word) : (s.setSp v).sp = v := rfl
@[simp] theorem State.setSp_pcs (s : State) (v : Word) : (s.setSp v).pcs = s.pcs := rfl
@[simp] theorem State.setSp_prot (s : State) (v : Word) : (s.setSp v).prot = s.prot := rfl
@[simp] theorem State.setSp_iopins (s : State) (v : Word) : (s.setSp v).iopins = s.iopins := rfl
@[simp] theorem State.setSp_mem (s : State) (v : Word) : (s.setSp v).mem = s.mem := rfl
@[simp] theorem State.setSp_draws (s : State) (v : Word) : (s.setSp v).draws = s.draws := rfl
@[simp] theorem State.setSp_x (s : State) (v : Word) (i : Reg) : (s.setSp v).x i = s.x i := rfl
@[simp] theorem State.setSp_xr (s : State) (v : Word) (i : Reg) (w : Width) : (s.setSp v).xr i w = s.xr i w := rfl

@[simp] theorem State.setPcs_regs (s : State) (v : Word) : (s.setPcs v).regs = s.regs := rfl
@[simp] theorem State.setPcs_pc (s : State) (v : Word) : (s.setPcs v).pc = s.pc := rfl
@[simp] theorem State.setPcs_flags (s : State) (v : Word) : (s.setPcs v).flags = s.flags := rfl
@[simp] theorem State.setPcs_sp (s : State) (v : Word) : (s.setPcs v).sp = s.sp := rfl
@[simp] theorem State.setPcs_pcs (s : State) (v : Word) : (s.setPcs v).pcs = v := rfl
@[simp] theorem State.setPcs_prot (s : State) (v : Word) : (s.setPcs v).prot = s.prot := rfl
@[simp] theorem State.setPcs_iopins (s : State) (v : Word) : (s.setPcs v).iopins = s.iopins := rfl
@[simp] theorem State.setPcs_mem (s : State) (v : Word) : (s.setPcs v).mem = s.mem := rfl
@[simp] theorem State.setPcs_draws (s : State) (v : Word) : (s.setPcs v).draws = s.draws := rfl
@[simp] theorem State.setPcs_x (s : State) (v : Word) (i : Reg) : (s.setPcs v).x i = s.x i := rfl
@[simp] theorem State.setPcs_xr (s : State) (v : Word) (i : Reg) (w : Width) : (s.setPcs v).xr i w = s.xr i w := rfl

@[simp] theorem State.setProt_regs (s : State) (b : Bool) : (s.setProt b).regs = s.regs := rfl
@[simp] theorem State.setProt_pc (s : State) (b : Bool) : (s.setProt b).pc = s.pc := rfl
@[simp] theorem State.setProt_flags (s : State) (b : Bool) : (s.setProt b).flags = s.flags := rfl
@[simp] theorem State.setProt_sp (s : State) (b : Bool) : (s.setProt b).sp = s.sp := rfl
@[simp] theorem State.setProt_pcs (s : State) (b : Bool) : (s.setProt b).pcs = s.pcs := rfl
@[simp] theorem State.setProt_prot (s : State) (b : Bool) : (s.setProt b).prot = b := rfl
@[simp] theorem State.setProt_iopins (s : State) (b : Bool) : (s.setProt b).iopins = s.iopins := rfl
@[simp] theorem State.setProt_mem (s : State) (b : Bool) : (s.setProt b).mem = s.mem := rfl
@[simp] theorem State.setProt_draws (s : State) (b : Bool) : (s.setProt b).draws = s.draws := rfl
@[simp] theorem State.setProt_x (s : State) (b : Bool) (i : Reg) : (s.setProt b).x i = s.x i := rfl
@[simp] theorem State.setProt_xr (s : State) (b : Bool) (i : Reg) (w : Width) : (s.setProt b).xr i w = s.xr i w := rfl

@[simp] theorem State.setIopins_regs (s : State) (v : BitVec 2) : (s.setIopins v).regs = s.regs := rfl
@[simp] theorem State.setIopins_pc (s : State) (v : BitVec 2) : (s.setIopins v).pc = s.pc := rfl
@[simp] theorem State.setIopins_flags (s : State) (v : BitVec 2) : (s.setIopins v).flags = s.flags := rfl
@[simp] theorem State.setIopins_sp (s : State) (v : BitVec 2) : (s.setIopins v).sp = s.sp := rfl
@[simp] theorem State.setIopins_pcs (s : State) (v : BitVec 2) : (s.setIopins v).pcs = s.pcs := rfl
@[simp] theorem State.setIopins_prot (s : State) (v : BitVec 2) : (s.setIopins v).prot = s.prot := rfl
@[simp] theorem State.setIopins_iopins (s : State) (v : BitVec 2) : (s.setIopins v).iopins = v := rfl
@[simp] theorem State.setIopins_mem (s : State) (v : BitVec 2) : (s.setIopins v).mem = s.mem := rfl
@[simp] theorem State.setIopins_draws (s : State) (v : BitVec 2) : (s.setIopins v).draws = s.draws := rfl
@[simp] theorem State.setIopins_x (s : State) (v : BitVec 2) (i : Reg) : (s.setIopins v).x i = s.x i := rfl
@[simp] theorem State.setIopins_xr (s : State) (v : BitVec 2) (i : Reg) (w : Width) : (s.setIopins v).xr i w = s.xr i w := rfl

@[simp] theorem State.setMem_regs (s : State) (m : Memory) : (s.setMem m).regs = s.regs := rfl
@[simp] theorem State.setMem_pc (s : State) (m : Memory) : (s.setMem m).pc = s.pc := rfl
@[simp] theorem State.setMem_flags (s : State) (m : Memory) : (s.setMem m).flags = s.flags := rfl
@[simp] theorem State.setMem_sp (s : State) (m : Memory) : (s.setMem m).sp = s.sp := rfl
@[simp] theorem State.setMem_pcs (s : State) (m : Memory) : (s.setMem m).pcs = s.pcs := rfl
@[simp] theorem State.setMem_prot (s : State) (m : Memory) : (s.setMem m).prot = s.prot := rfl
@[simp] theorem State.setMem_iopins (s : State) (m : Memory) : (s.setMem m).iopins = s.iopins := rfl
@[simp] theorem State.setMem_mem (s : State) (m : Memory) : (s.setMem m).mem = m := rfl
@[simp] theorem State.setMem_draws (s : State) (m : Memory) : (s.setMem m).draws = s.draws := rfl
@[simp] theorem State.setMem_x (s : State) (m : Memory) (i : Reg) : (s.setMem m).x i = s.x i := rfl
@[simp] theorem State.setMem_xr (s : State) (m : Memory) (i : Reg) (w : Width) : (s.setMem m).xr i w = s.xr i w := rfl

@[simp] theorem State.setDraws_regs (s : State) (k : Nat) : (s.setDraws k).regs = s.regs := rfl
@[simp] theorem State.setDraws_pc (s : State) (k : Nat) : (s.setDraws k).pc = s.pc := rfl
@[simp] theorem State.setDraws_flags (s : State) (k : Nat) : (s.setDraws k).flags = s.flags := rfl
@[simp] theorem State.setDraws_sp (s : State) (k : Nat) : (s.setDraws k).sp = s.sp := rfl
@[simp] theorem State.setDraws_pcs (s : State) (k : Nat) : (s.setDraws k).pcs = s.pcs := rfl
@[simp] theorem State.setDraws_prot (s : State) (k : Nat) : (s.setDraws k).prot = s.prot := rfl
@[simp] theorem State.setDraws_iopins (s : State) (k : Nat) : (s.setDraws k).iopins = s.iopins := rfl
@[simp] theorem State.setDraws_mem (s : State) (k : Nat) : (s.setDraws k).mem = s.mem := rfl
@[simp] theorem State.setDraws_draws (s : State) (k : Nat) : (s.setDraws k).draws = k := rfl
@[simp] theorem State.setDraws_x (s : State) (k : Nat) (i : Reg) : (s.setDraws k).x i = s.x i := rfl
@[simp] theorem State.setDraws_xr (s : State) (k : Nat) (i : Reg) (w : Width) : (s.setDraws k).xr i w = s.xr i w := rfl

@[simp] theorem State.setX_pc (s : State) (i : Reg) (v : Word) : (s.setX i v).pc = s.pc := rfl
@[simp] theorem State.setX_flags (s : State) (i : Reg) (v : Word) : (s.setX i v).flags = s.flags := rfl
@[simp] theorem State.setX_sp (s : State) (i : Reg) (v : Word) : (s.setX i v).sp = s.sp := rfl
@[simp] theorem State.setX_pcs (s : State) (i : Reg) (v : Word) : (s.setX i v).pcs = s.pcs := rfl
@[simp] theorem State.setX_prot (s : State) (i : Reg) (v : Word) : (s.setX i v).prot = s.prot := rfl
@[simp] theorem State.setX_iopins (s : State) (i : Reg) (v : Word) : (s.setX i v).iopins = s.iopins := rfl
@[simp] theorem State.setX_mem (s : State) (i : Reg) (v : Word) : (s.setX i v).mem = s.mem := rfl
@[simp] theorem State.setX_draws (s : State) (i : Reg) (v : Word) : (s.setX i v).draws = s.draws := rfl

/-- A register reads as it was last written (R5). -/
@[simp] theorem State.setX_x_same (s : State) (i : Reg) (v : Word) : (s.setX i v).x i = v := by
  simp [State.setX, State.x, Vector.get_eq_getElem]

/-- A register write leaves the other registers (R11). -/
theorem State.setX_x_other (s : State) {i j : Reg} (v : Word) (h : j ≠ i) : (s.setX i v).x j = s.x j := by
  simp only [State.setX, State.x, Vector.get_eq_getElem]
  exact Vector.getElem_set_ne _ _ (fun e => h (Fin.ext e.symm))

/-- A register write read back at any register. -/
theorem State.setX_x (s : State) (i j : Reg) (v : Word) : (s.setX i v).x j = if j = i then v else s.x j := by
  split
  · next h => subst h; exact s.setX_x_same j v
  · next h => exact s.setX_x_other v h

/-- Writing back what a register holds changes nothing. -/
@[simp] theorem State.setX_self (s : State) (i : Reg) : s.setX i (s.x i) = s := by
  simp [State.setX, State.x, Vector.get_eq_getElem]

@[simp] theorem State.xw_pc (s : State) (i : Reg) (w : Width) (v : BitVec w.bits) : (s.xw i w v).pc = s.pc := rfl
@[simp] theorem State.xw_flags (s : State) (i : Reg) (w : Width) (v : BitVec w.bits) : (s.xw i w v).flags = s.flags := rfl
@[simp] theorem State.xw_sp (s : State) (i : Reg) (w : Width) (v : BitVec w.bits) : (s.xw i w v).sp = s.sp := rfl
@[simp] theorem State.xw_pcs (s : State) (i : Reg) (w : Width) (v : BitVec w.bits) : (s.xw i w v).pcs = s.pcs := rfl
@[simp] theorem State.xw_prot (s : State) (i : Reg) (w : Width) (v : BitVec w.bits) : (s.xw i w v).prot = s.prot := rfl
@[simp] theorem State.xw_iopins (s : State) (i : Reg) (w : Width) (v : BitVec w.bits) : (s.xw i w v).iopins = s.iopins := rfl
@[simp] theorem State.xw_mem (s : State) (i : Reg) (w : Width) (v : BitVec w.bits) : (s.xw i w v).mem = s.mem := rfl
@[simp] theorem State.xw_draws (s : State) (i : Reg) (w : Width) (v : BitVec w.bits) : (s.xw i w v).draws = s.draws := rfl

@[simp] theorem State.advance_regs (s : State) (len : Nat) : (s.advance len).regs = s.regs := rfl
@[simp] theorem State.advance_flags (s : State) (len : Nat) : (s.advance len).flags = s.flags := rfl
@[simp] theorem State.advance_sp (s : State) (len : Nat) : (s.advance len).sp = s.sp := rfl
@[simp] theorem State.advance_pcs (s : State) (len : Nat) : (s.advance len).pcs = s.pcs := rfl
@[simp] theorem State.advance_prot (s : State) (len : Nat) : (s.advance len).prot = s.prot := rfl
@[simp] theorem State.advance_iopins (s : State) (len : Nat) : (s.advance len).iopins = s.iopins := rfl
@[simp] theorem State.advance_mem (s : State) (len : Nat) : (s.advance len).mem = s.mem := rfl
@[simp] theorem State.advance_draws (s : State) (len : Nat) : (s.advance len).draws = s.draws := rfl
@[simp] theorem State.advance_pc (s : State) (len : Nat) : (s.advance len).pc = s.pc + BitVec.ofNat 16 len := rfl
@[simp] theorem State.advance_x (s : State) (len : Nat) (i : Reg) : (s.advance len).x i = s.x i := rfl
@[simp] theorem State.advance_xr (s : State) (len : Nat) (i : Reg) (w : Width) : (s.advance len).xr i w = s.xr i w := rfl

end Sys2Proof.Machine
end

