-- ==== Sys2Proof/Laws/Ops.lean ====
section
/-! SUPPORT. For each shared operation, once, what it can do: a proof cites these and unfolds no operation. -/

namespace Sys2Proof.Machine

/-! ### Typed access (R12) -/

/-- A typed read of a merged register is the value written (R12). -/
theorem setWidth_mergeReg (w : Width) (old : Word) (v : BitVec w.bits) : (mergeReg w old v).setWidth w.bits = v := by
  cases w
  · exact BitVec.eq_of_getLsbD_eq fun i hi => by
      have h8 : i < 8 := hi
      simp [mergeReg, BitVec.getLsbD_append, h8]
  · simp [mergeReg]

/-- A byte write keeps bits 15:8 of the register (R12). -/
theorem upper_mergeReg_byte (old : Word) (v : Byte) : (mergeReg .byte old v).extractLsb' 8 8 = old.extractLsb' 8 8 := by
  refine BitVec.eq_of_getLsbD_eq fun i hi => ?_
  simp only [mergeReg, BitVec.getLsbD_extractLsb', BitVec.getLsbD_append]
  have : ¬ 8 + i < 8 := by omega
  simp [this, hi]

/-- A typed write read back (R12). -/
@[simp] theorem State.xw_xr_same (s : State) (i : Reg) (w : Width) (v : BitVec w.bits) : (s.xw i w v).xr i w = v := by
  simp [State.xw, State.xr, setWidth_mergeReg]

/-- A typed write's register, whole (R12). -/
@[simp] theorem State.xw_x_same (s : State) (i : Reg) (w : Width) (v : BitVec w.bits) :
    (s.xw i w v).x i = mergeReg w (s.x i) v := by simp [State.xw]

/-- A typed write leaves the other registers (R11). -/
theorem State.xw_x_other (s : State) {i j : Reg} (w : Width) (v : BitVec w.bits) (h : j ≠ i) :
    (s.xw i w v).x j = s.x j := State.setX_x_other s _ h

/-! ### The stacks (R117, R161) -/

@[simp] theorem State.pushData_sp (s : State) (w : Width) (v : BitVec w.bits) :
    (s.pushData w v).sp = s.sp - BitVec.ofNat 16 w.bytes := rfl
@[simp] theorem State.pushData_mem (s : State) (w : Width) (v : BitVec w.bits) :
    (s.pushData w v).mem = s.mem.writeAt w (s.sp - BitVec.ofNat 16 w.bytes) v := rfl
@[simp] theorem State.pushData_pc (s : State) (w : Width) (v : BitVec w.bits) : (s.pushData w v).pc = s.pc := rfl
@[simp] theorem State.pushData_regs (s : State) (w : Width) (v : BitVec w.bits) : (s.pushData w v).regs = s.regs := rfl
@[simp] theorem State.pushData_flags (s : State) (w : Width) (v : BitVec w.bits) :
    (s.pushData w v).flags = s.flags := rfl
@[simp] theorem State.pushData_pcs (s : State) (w : Width) (v : BitVec w.bits) : (s.pushData w v).pcs = s.pcs := rfl
@[simp] theorem State.pushData_prot (s : State) (w : Width) (v : BitVec w.bits) : (s.pushData w v).prot = s.prot := rfl
@[simp] theorem State.pushData_iopins (s : State) (w : Width) (v : BitVec w.bits) :
    (s.pushData w v).iopins = s.iopins := rfl
@[simp] theorem State.pushData_draws (s : State) (w : Width) (v : BitVec w.bits) :
    (s.pushData w v).draws = s.draws := rfl

@[simp] theorem State.pushPc_pcs (s : State) (v : Word) : (s.pushPc v).pcs = s.pcs - 2#16 := rfl
@[simp] theorem State.pushPc_mem (s : State) (v : Word) : (s.pushPc v).mem = s.mem.writeWord (s.pcs - 2#16) v := rfl
@[simp] theorem State.pushPc_pc (s : State) (v : Word) : (s.pushPc v).pc = s.pc := rfl
@[simp] theorem State.pushPc_regs (s : State) (v : Word) : (s.pushPc v).regs = s.regs := rfl
@[simp] theorem State.pushPc_flags (s : State) (v : Word) : (s.pushPc v).flags = s.flags := rfl
@[simp] theorem State.pushPc_sp (s : State) (v : Word) : (s.pushPc v).sp = s.sp := rfl
@[simp] theorem State.pushPc_prot (s : State) (v : Word) : (s.pushPc v).prot = s.prot := rfl
@[simp] theorem State.pushPc_iopins (s : State) (v : Word) : (s.pushPc v).iopins = s.iopins := rfl
@[simp] theorem State.pushPc_draws (s : State) (v : Word) : (s.pushPc v).draws = s.draws := rfl

/-- A return pops the PC Stack into `pc` and changes nothing else (R162, R170). -/
theorem State.popPc_eq (s : State) : s.popPc = (s.setPcs (s.pcs + 2#16)).setPc (s.mem.readWord s.pcs) := rfl

/-- The interrupt call pushes the return address and jumps; nothing else (R188). -/
theorem State.callInterrupt_eq (s : State) (vec : Word) (len : Nat) :
    s.callInterrupt vec len = (s.pushPc (s.pcNext len)).setPc vec := rfl

/-- The return from interrupt is the pop of the PC Stack (R170, R189). -/
theorem State.returnFromInterrupt_eq (s : State) : s.returnFromInterrupt = s.popPc := rfl

/-! ### What a step can do (R23) -/

/-- A fault changes nothing and answers no next state (R180). -/
theorem raise_ne_next (f : Word → Fault) (s t : State) : raise f s ≠ .next t := by
  intro h; cases h

/-- If a step answers a next state, the bytes at `pc` decoded and their instruction answered it. -/
theorem step_next {s t : State} (h : step s = .next t) : ∃ i, s.fetch = .ok i ∧ exec i s = .next t := by
  unfold step at h
  cases hf : s.fetch with
  | error e => rw [hf] at h; exact absurd h (raise_ne_next _ _ _)
  | ok i => rw [hf] at h; exact ⟨i, rfl, h⟩

/-- If a step faults, the bytes at `pc` did not decode or their instruction faulted. -/
theorem step_fault {s : State} {f : Fault} (h : step s = .fault f) :
    (∃ e, s.fetch = .error e ∧ f = .illegalInstruction s.pc) ∨ ∃ i, s.fetch = .ok i ∧ exec i s = .fault f := by
  unfold step at h
  cases hf : s.fetch with
  | error e => rw [hf] at h; cases h; exact .inl ⟨e, rfl, rfl⟩
  | ok i => rw [hf] at h; exact .inr ⟨i, rfl, h⟩

/-! ### What the shared operations of the families answer -/

/-- `div` answers only for a divisor that is not zero (R81). -/
theorem divInto_next {w : Width} {p : Reg} {b : BitVec w.bits} {len : Nat} {s t : State}
    (h : divInto w p b len s = .next t) :
    b ≠ 0#w.bits ∧ t = ((s.xw p w (divResult (s.xr p w) b)).setFlags (divFlags (s.xr p w) b)).advance len := by
  unfold divInto at h
  split at h
  · exact absurd h (raise_ne_next _ _ _)
  · next hb => cases h; exact ⟨hb, rfl⟩

/-- `dvs` answers only for a divisor that is not zero (R82). -/
theorem dvsInto_next {w : Width} {p : Reg} {b : BitVec w.bits} {len : Nat} {s t : State}
    (h : dvsInto w p b len s = .next t) :
    b ≠ 0#w.bits ∧ t = ((s.xw p w (dvsResult (s.xr p w) b)).setFlags (dvsFlags (s.xr p w) b)).advance len := by
  unfold dvsInto at h
  split at h
  · exact absurd h (raise_ne_next _ _ _)
  · next hb => cases h; exact ⟨hb, rfl⟩

/-- A conditional branch moves `pc` alone (R132, R133). -/
theorem branchIf_eq (table : List CondRow) (target : Word) (len : Nat) (s : State) :
    branchIf table target len s = .next (s.setPc (if condHolds table s.flags then target else s.pcNext len)) := by
  unfold branchIf
  split <;> rfl

/-- `ent` answers only outside Protected Mode (R167). -/
theorem enterProtected_next {len : Nat} {s t : State} (h : enterProtected len s = .next t) :
    s.prot = false ∧
      t = ((s.setProt true).setFlags clearedFlags).callInterrupt Config.enterProtVector len := by
  unfold enterProtected at h
  split at h
  · exact absurd h (raise_ne_next _ _ _)
  · next hp => cases h; exact ⟨by simpa using hp, rfl⟩

/-- `io` answers only outside Protected Mode and for a field value of 0..3 (R169). -/
theorem drivePins_next {n : Nibble} {len : Nat} {s t : State} (h : drivePins n len s = .next t) :
    s.prot = false ∧ n.toNat ≤ 3 ∧ t = (s.setIopins (n.extractLsb' 0 2)).advance len := by
  unfold drivePins at h
  split at h
  · exact absurd h (raise_ne_next _ _ _)
  · next hp =>
    split at h
    · exact absurd h (raise_ne_next _ _ _)
    · next hn => cases h; exact ⟨by simpa using hp, by omega, rfl⟩

end Sys2Proof.Machine
end

