-- ==== Sys2Proof/Laws/PerInstr.lean ====
section
/-! SUPPORT. Laws stated for every instruction, one lemma for each constructor of `Instr`. -/

namespace Sys2Proof.Laws.EncodedLength

/-- An instruction's bytes are as many as its opcode byte alone says (R45, R51, R55 of 30_encoding.md). -/
def Statement (i : Instr) : Prop :=
  ∃ op rest, encode i = op :: rest ∧ opcodeLength op.toNat = some (rest.length + 1)

theorem addWR (p q : Reg) : Statement (.addWR p q) := ⟨_, _, rfl, rfl⟩
theorem addBR (p q : Reg) : Statement (.addBR p q) := ⟨_, _, rfl, rfl⟩
theorem addWI (p : Reg) (imm : Word) : Statement (.addWI p imm) := ⟨_, _, rfl, rfl⟩
theorem addBI (p : Reg) (b : Byte) : Statement (.addBI p b) := ⟨_, _, rfl, rfl⟩
theorem adqWU (p : Reg) (n : Nibble) : Statement (.adqWU p n) := ⟨_, _, rfl, rfl⟩
theorem adqBU (p : Reg) (n : Nibble) : Statement (.adqBU p n) := ⟨_, _, rfl, rfl⟩
theorem adqWS (p : Reg) (n : Nibble) : Statement (.adqWS p n) := ⟨_, _, rfl, rfl⟩
theorem adqBS (p : Reg) (n : Nibble) : Statement (.adqBS p n) := ⟨_, _, rfl, rfl⟩
theorem adsWR (p q : Reg) : Statement (.adsWR p q) := ⟨_, _, rfl, rfl⟩
theorem adsBR (p q : Reg) : Statement (.adsBR p q) := ⟨_, _, rfl, rfl⟩
theorem adsWI (p : Reg) (imm : Word) : Statement (.adsWI p imm) := ⟨_, _, rfl, rfl⟩
theorem adsBI (p : Reg) (b : Byte) : Statement (.adsBI p b) := ⟨_, _, rfl, rfl⟩
theorem subWR (p q : Reg) : Statement (.subWR p q) := ⟨_, _, rfl, rfl⟩
theorem subBR (p q : Reg) : Statement (.subBR p q) := ⟨_, _, rfl, rfl⟩
theorem subWI (p : Reg) (imm : Word) : Statement (.subWI p imm) := ⟨_, _, rfl, rfl⟩
theorem subBI (p : Reg) (b : Byte) : Statement (.subBI p b) := ⟨_, _, rfl, rfl⟩
theorem sbqWU (p : Reg) (n : Nibble) : Statement (.sbqWU p n) := ⟨_, _, rfl, rfl⟩
theorem sbqBU (p : Reg) (n : Nibble) : Statement (.sbqBU p n) := ⟨_, _, rfl, rfl⟩
theorem sbqWS (p : Reg) (n : Nibble) : Statement (.sbqWS p n) := ⟨_, _, rfl, rfl⟩
theorem sbqBS (p : Reg) (n : Nibble) : Statement (.sbqBS p n) := ⟨_, _, rfl, rfl⟩
theorem sbsWR (p q : Reg) : Statement (.sbsWR p q) := ⟨_, _, rfl, rfl⟩
theorem sbsBR (p q : Reg) : Statement (.sbsBR p q) := ⟨_, _, rfl, rfl⟩
theorem sbsWI (p : Reg) (imm : Word) : Statement (.sbsWI p imm) := ⟨_, _, rfl, rfl⟩
theorem sbsBI (p : Reg) (b : Byte) : Statement (.sbsBI p b) := ⟨_, _, rfl, rfl⟩
theorem mulWR (p q : Reg) : Statement (.mulWR p q) := ⟨_, _, rfl, rfl⟩
theorem mulBR (p q : Reg) : Statement (.mulBR p q) := ⟨_, _, rfl, rfl⟩
theorem mulWI (p : Reg) (imm : Word) : Statement (.mulWI p imm) := ⟨_, _, rfl, rfl⟩
theorem mulBI (p : Reg) (b : Byte) : Statement (.mulBI p b) := ⟨_, _, rfl, rfl⟩
theorem mlsWR (p q : Reg) : Statement (.mlsWR p q) := ⟨_, _, rfl, rfl⟩
theorem mlsBR (p q : Reg) : Statement (.mlsBR p q) := ⟨_, _, rfl, rfl⟩
theorem mlsWI (p : Reg) (imm : Word) : Statement (.mlsWI p imm) := ⟨_, _, rfl, rfl⟩
theorem mlsBI (p : Reg) (b : Byte) : Statement (.mlsBI p b) := ⟨_, _, rfl, rfl⟩
theorem divWR (p q : Reg) : Statement (.divWR p q) := ⟨_, _, rfl, rfl⟩
theorem divBR (p q : Reg) : Statement (.divBR p q) := ⟨_, _, rfl, rfl⟩
theorem divWI (p : Reg) (imm : Word) : Statement (.divWI p imm) := ⟨_, _, rfl, rfl⟩
theorem divBI (p : Reg) (b : Byte) : Statement (.divBI p b) := ⟨_, _, rfl, rfl⟩
theorem dvsWR (p q : Reg) : Statement (.dvsWR p q) := ⟨_, _, rfl, rfl⟩
theorem dvsBR (p q : Reg) : Statement (.dvsBR p q) := ⟨_, _, rfl, rfl⟩
theorem dvsWI (p : Reg) (imm : Word) : Statement (.dvsWI p imm) := ⟨_, _, rfl, rfl⟩
theorem dvsBI (p : Reg) (b : Byte) : Statement (.dvsBI p b) := ⟨_, _, rfl, rfl⟩
theorem negW (p : Reg) : Statement (.negW p) := ⟨_, _, rfl, rfl⟩
theorem negB (p : Reg) : Statement (.negB p) := ⟨_, _, rfl, rfl⟩
theorem andWR (p q : Reg) : Statement (.andWR p q) := ⟨_, _, rfl, rfl⟩
theorem andBR (p q : Reg) : Statement (.andBR p q) := ⟨_, _, rfl, rfl⟩
theorem andWI (p : Reg) (imm : Word) : Statement (.andWI p imm) := ⟨_, _, rfl, rfl⟩
theorem andBI (p : Reg) (b : Byte) : Statement (.andBI p b) := ⟨_, _, rfl, rfl⟩
theorem orWR (p q : Reg) : Statement (.orWR p q) := ⟨_, _, rfl, rfl⟩
theorem orBR (p q : Reg) : Statement (.orBR p q) := ⟨_, _, rfl, rfl⟩
theorem orWI (p : Reg) (imm : Word) : Statement (.orWI p imm) := ⟨_, _, rfl, rfl⟩
theorem orBI (p : Reg) (b : Byte) : Statement (.orBI p b) := ⟨_, _, rfl, rfl⟩
theorem xorWR (p q : Reg) : Statement (.xorWR p q) := ⟨_, _, rfl, rfl⟩
theorem xorBR (p q : Reg) : Statement (.xorBR p q) := ⟨_, _, rfl, rfl⟩
theorem xorWI (p : Reg) (imm : Word) : Statement (.xorWI p imm) := ⟨_, _, rfl, rfl⟩
theorem xorBI (p : Reg) (b : Byte) : Statement (.xorBI p b) := ⟨_, _, rfl, rfl⟩
theorem notW (p : Reg) : Statement (.notW p) := ⟨_, _, rfl, rfl⟩
theorem notB (p : Reg) : Statement (.notB p) := ⟨_, _, rfl, rfl⟩
theorem shlW (p : Reg) (n : Nibble) : Statement (.shlW p n) := ⟨_, _, rfl, rfl⟩
theorem shlB (p : Reg) (n : Nibble) : Statement (.shlB p n) := ⟨_, _, rfl, rfl⟩
theorem shrW (p : Reg) (n : Nibble) : Statement (.shrW p n) := ⟨_, _, rfl, rfl⟩
theorem shrB (p : Reg) (n : Nibble) : Statement (.shrB p n) := ⟨_, _, rfl, rfl⟩
theorem rolW (p : Reg) (n : Nibble) : Statement (.rolW p n) := ⟨_, _, rfl, rfl⟩
theorem rolB (p : Reg) (n : Nibble) : Statement (.rolB p n) := ⟨_, _, rfl, rfl⟩
theorem rorW (p : Reg) (n : Nibble) : Statement (.rorW p n) := ⟨_, _, rfl, rfl⟩
theorem rorB (p : Reg) (n : Nibble) : Statement (.rorB p n) := ⟨_, _, rfl, rfl⟩
theorem swpW (p : Reg) : Statement (.swpW p) := ⟨_, _, rfl, rfl⟩
theorem swpB (p : Reg) : Statement (.swpB p) := ⟨_, _, rfl, rfl⟩
theorem cpyW (p q : Reg) : Statement (.cpyW p q) := ⟨_, _, rfl, rfl⟩
theorem cpyB (p q : Reg) : Statement (.cpyB p q) := ⟨_, _, rfl, rfl⟩
theorem clrW (p : Reg) : Statement (.clrW p) := ⟨_, _, rfl, rfl⟩
theorem clrB (p : Reg) : Statement (.clrB p) := ⟨_, _, rfl, rfl⟩
theorem stqW (p : Reg) (n : Nibble) : Statement (.stqW p n) := ⟨_, _, rfl, rfl⟩
theorem stqB (p : Reg) (n : Nibble) : Statement (.stqB p n) := ⟨_, _, rfl, rfl⟩
theorem excW (p q : Reg) : Statement (.excW p q) := ⟨_, _, rfl, rfl⟩
theorem excB (p q : Reg) : Statement (.excB p q) := ⟨_, _, rfl, rfl⟩
theorem lWR (p q : Reg) : Statement (.lWR p q) := ⟨_, _, rfl, rfl⟩
theorem lWA (p : Reg) (imm : Word) : Statement (.lWA p imm) := ⟨_, _, rfl, rfl⟩
theorem lBR (p q : Reg) : Statement (.lBR p q) := ⟨_, _, rfl, rfl⟩
theorem lBA (p : Reg) (imm : Word) : Statement (.lBA p imm) := ⟨_, _, rfl, rfl⟩
theorem sWR (p q : Reg) : Statement (.sWR p q) := ⟨_, _, rfl, rfl⟩
theorem sWA (imm : Word) (q : Reg) : Statement (.sWA imm q) := ⟨_, _, rfl, rfl⟩
theorem sBR (p q : Reg) : Statement (.sBR p q) := ⟨_, _, rfl, rfl⟩
theorem sBA (imm : Word) (q : Reg) : Statement (.sBA imm q) := ⟨_, _, rfl, rfl⟩
theorem pshWR (p : Reg) : Statement (.pshWR p) := ⟨_, _, rfl, rfl⟩
theorem pshBR (p : Reg) : Statement (.pshBR p) := ⟨_, _, rfl, rfl⟩
theorem pshWI (imm : Word) : Statement (.pshWI imm) := ⟨_, _, rfl, rfl⟩
theorem pshBI (b : Byte) : Statement (.pshBI b) := ⟨_, _, rfl, rfl⟩
theorem popW (p : Reg) : Statement (.popW p) := ⟨_, _, rfl, rfl⟩
theorem popB (p : Reg) : Statement (.popB p) := ⟨_, _, rfl, rfl⟩
theorem tsr (p : Reg) : Statement (.tsr p) := ⟨_, _, rfl, rfl⟩
theorem trs (p : Reg) : Statement (.trs p) := ⟨_, _, rfl, rfl⟩
theorem tpr (p : Reg) : Statement (.tpr p) := ⟨_, _, rfl, rfl⟩
theorem trp (p : Reg) : Statement (.trp p) := ⟨_, _, rfl, rfl⟩
theorem cmpWR (p q : Reg) : Statement (.cmpWR p q) := ⟨_, _, rfl, rfl⟩
theorem cmpWQ (p : Reg) (n : Nibble) : Statement (.cmpWQ p n) := ⟨_, _, rfl, rfl⟩
theorem cmpBR (p q : Reg) : Statement (.cmpBR p q) := ⟨_, _, rfl, rfl⟩
theorem cmpBQ (p : Reg) (n : Nibble) : Statement (.cmpBQ p n) := ⟨_, _, rfl, rfl⟩
theorem cmpWI (p : Reg) (imm : Word) : Statement (.cmpWI p imm) := ⟨_, _, rfl, rfl⟩
theorem cmpBI (p : Reg) (b : Byte) : Statement (.cmpBI p b) := ⟨_, _, rfl, rfl⟩
theorem dcpWI (p : Reg) (imm : Word) : Statement (.dcpWI p imm) := ⟨_, _, rfl, rfl⟩
theorem dcpBI (p : Reg) (b : Byte) : Statement (.dcpBI p b) := ⟨_, _, rfl, rfl⟩
theorem dcpWR (p q : Reg) : Statement (.dcpWR p q) := ⟨_, _, rfl, rfl⟩
theorem dcpBR (p q : Reg) : Statement (.dcpBR p q) := ⟨_, _, rfl, rfl⟩
theorem zcpW (p : Reg) : Statement (.zcpW p) := ⟨_, _, rfl, rfl⟩
theorem zcpB (p : Reg) : Statement (.zcpB p) := ⟨_, _, rfl, rfl⟩
theorem beqL (imm : Word) : Statement (.beqL imm) := ⟨_, _, rfl, rfl⟩
theorem beqS (b : Byte) : Statement (.beqS b) := ⟨_, _, rfl, rfl⟩
theorem bfeL (imm : Word) : Statement (.bfeL imm) := ⟨_, _, rfl, rfl⟩
theorem bfeS (b : Byte) : Statement (.bfeS b) := ⟨_, _, rfl, rfl⟩
theorem bftL (imm : Word) : Statement (.bftL imm) := ⟨_, _, rfl, rfl⟩
theorem bftS (b : Byte) : Statement (.bftS b) := ⟨_, _, rfl, rfl⟩
theorem bgeL (imm : Word) : Statement (.bgeL imm) := ⟨_, _, rfl, rfl⟩
theorem bgeS (b : Byte) : Statement (.bgeS b) := ⟨_, _, rfl, rfl⟩
theorem bgtL (imm : Word) : Statement (.bgtL imm) := ⟨_, _, rfl, rfl⟩
theorem bgtS (b : Byte) : Statement (.bgtS b) := ⟨_, _, rfl, rfl⟩
theorem bleL (imm : Word) : Statement (.bleL imm) := ⟨_, _, rfl, rfl⟩
theorem bleS (b : Byte) : Statement (.bleS b) := ⟨_, _, rfl, rfl⟩
theorem bltL (imm : Word) : Statement (.bltL imm) := ⟨_, _, rfl, rfl⟩
theorem bltS (b : Byte) : Statement (.bltS b) := ⟨_, _, rfl, rfl⟩
theorem bmeL (imm : Word) : Statement (.bmeL imm) := ⟨_, _, rfl, rfl⟩
theorem bmeS (b : Byte) : Statement (.bmeS b) := ⟨_, _, rfl, rfl⟩
theorem bmtL (imm : Word) : Statement (.bmtL imm) := ⟨_, _, rfl, rfl⟩
theorem bmtS (b : Byte) : Statement (.bmtS b) := ⟨_, _, rfl, rfl⟩
theorem bneL (imm : Word) : Statement (.bneL imm) := ⟨_, _, rfl, rfl⟩
theorem bneS (b : Byte) : Statement (.bneS b) := ⟨_, _, rfl, rfl⟩
theorem bnzL (imm : Word) : Statement (.bnzL imm) := ⟨_, _, rfl, rfl⟩
theorem bnzS (b : Byte) : Statement (.bnzS b) := ⟨_, _, rfl, rfl⟩
theorem braR : Statement (.braR) := ⟨_, _, rfl, rfl⟩
theorem braL (imm : Word) : Statement (.braL imm) := ⟨_, _, rfl, rfl⟩
theorem braS (b : Byte) : Statement (.braS b) := ⟨_, _, rfl, rfl⟩
theorem brcL (imm : Word) : Statement (.brcL imm) := ⟨_, _, rfl, rfl⟩
theorem brcS (b : Byte) : Statement (.brcS b) := ⟨_, _, rfl, rfl⟩
theorem brnL (imm : Word) : Statement (.brnL imm) := ⟨_, _, rfl, rfl⟩
theorem brnS (b : Byte) : Statement (.brnS b) := ⟨_, _, rfl, rfl⟩
theorem broL (imm : Word) : Statement (.broL imm) := ⟨_, _, rfl, rfl⟩
theorem broS (b : Byte) : Statement (.broS b) := ⟨_, _, rfl, rfl⟩
theorem brpL (imm : Word) : Statement (.brpL imm) := ⟨_, _, rfl, rfl⟩
theorem brpS (b : Byte) : Statement (.brpS b) := ⟨_, _, rfl, rfl⟩
theorem brzL (imm : Word) : Statement (.brzL imm) := ⟨_, _, rfl, rfl⟩
theorem brzS (b : Byte) : Statement (.brzS b) := ⟨_, _, rfl, rfl⟩
theorem jmpR (p : Reg) : Statement (.jmpR p) := ⟨_, _, rfl, rfl⟩
theorem jmpA (imm : Word) : Statement (.jmpA imm) := ⟨_, _, rfl, rfl⟩
theorem jsrR (p : Reg) : Statement (.jsrR p) := ⟨_, _, rfl, rfl⟩
theorem jsrA (imm : Word) : Statement (.jsrA imm) := ⟨_, _, rfl, rfl⟩
theorem ret : Statement (.ret) := ⟨_, _, rfl, rfl⟩
theorem ent : Statement (.ent) := ⟨_, _, rfl, rfl⟩
theorem lve : Statement (.lve) := ⟨_, _, rfl, rfl⟩
theorem io (n : Nibble) : Statement (.io n) := ⟨_, _, rfl, rfl⟩
theorem rti : Statement (.rti) := ⟨_, _, rfl, rfl⟩

end Sys2Proof.Laws.EncodedLength
end

