-- ==== Sys2Proof/Tests/Slice0.lean ====
section
/-! SUPPORT. Tests of single definitions and single steps, and the witnesses of the statements' hypotheses. Expected
values come from spec/: bit strings from the Encoding column (`source_encoding` of opcode_table.json),
  one-step results
from the rows T1 to T258 of 95_test_vectors.md, named beside each. -/

namespace Sys2Proof.Tests

open Sys2Proof.Machine Sys2Proof.Safety Sys2Proof.Claims

/-! ### Helpers -/

/-- The flags written as the spec's vectors write them: N V Z C. -/
def nvzc (f : BitVec 4) : Flags := ⟨f.getLsbD 3, f.getLsbD 2, f.getLsbD 1, f.getLsbD 0⟩

/-- The start state of a vector: the instruction's bytes at $1000, some registers and the flags given. -/
def boot (code : List Byte) (regs : List (Reg × Word)) (f : BitVec 4) : State :=
  let s := (State.reset.setPc 0x1000#16).setFlags (nvzc f)
  regs.foldl (fun s e => s.setX e.1 e.2) (s.setMem (s.mem.writeBytes 0x1000#16 code))

/-- A byte of memory given. -/
def poke (s : State) (a : Word) (v : Byte) : State := s.setMem (s.mem.writeByte a v)

/-- One step answers a next state of which the check holds. -/
def after (s : State) (check : State → Bool) : Bool :=
  match step s with
  | .next t => check t
  | _ => false

/-- The bytes decode to the instruction, with nothing left, and encode it. -/
def reads (bytes : List Byte) (i : Instr) : Bool :=
  match decode bytes with
  | .ok (j, []) => decide (j = i) && decide (encode i = bytes)
  | _ => false

/-- The bytes are refused as an instruction. -/
def rejects (bytes : List Byte) : Bool :=
  match decode bytes with
  | .ok _ => false
  | .error _ => true

/-! ### Well-formedness -/

/-- The one ill-formed field value of R56 is refused, at its boundary and at its end. -/
theorem test_wellFormed_refuses_io_above_3 :
    (Instr.io 4#4).wellFormed = false ∧ (Instr.io 15#4).wellFormed = false := by decide

/-- The field values of R56 that `io` has a meaning for are accepted. -/
theorem test_wellFormed_accepts_io_up_to_3 :
    (Instr.io 0#4).wellFormed = true ∧ (Instr.io 3#4).wellFormed = true := by decide

/-! ### Decoding, every row of the opcode table written out from its Encoding column -/

theorem test_decode_arithmetic_1 :
    reads [0b00000111#8, 0b10100011#8] (.addWR 10 3) ∧
    reads [0b01000111#8, 0b10100011#8] (.addBR 10 3) ∧
    reads [0b10000111#8, 0b10100000#8, 0b00110100#8, 0b00010010#8] (.addWI 10 0x1234#16) ∧
    reads [0b11000111#8, 0b10100000#8, 0b10000001#8, 0b00000000#8] (.addBI 10 0b10000001#8) ∧
    reads [0b00001001#8, 0b10101001#8] (.adqWU 10 0b1001#4) ∧
    reads [0b01001001#8, 0b10101001#8] (.adqBU 10 0b1001#4) ∧
    reads [0b10001001#8, 0b10101001#8] (.adqWS 10 0b1001#4) ∧
    reads [0b11001001#8, 0b10101001#8] (.adqBS 10 0b1001#4) ∧
    reads [0b00001000#8, 0b10100011#8] (.adsWR 10 3) ∧
    reads [0b01001000#8, 0b10100011#8] (.adsBR 10 3) ∧
    reads [0b10001000#8, 0b10100000#8, 0b00110100#8, 0b00010010#8] (.adsWI 10 0x1234#16) ∧
    reads [0b11001000#8, 0b10100000#8, 0b10000001#8, 0b00000000#8] (.adsBI 10 0b10000001#8) ∧
    reads [0b00001010#8, 0b10100011#8] (.subWR 10 3) ∧
    reads [0b01001010#8, 0b10100011#8] (.subBR 10 3) ∧
    reads [0b10001010#8, 0b10100000#8, 0b00110100#8, 0b00010010#8] (.subWI 10 0x1234#16) ∧
    reads [0b11001010#8, 0b10100000#8, 0b10000001#8, 0b00000000#8] (.subBI 10 0b10000001#8) ∧
    reads [0b00001100#8, 0b10101001#8] (.sbqWU 10 0b1001#4) ∧
    reads [0b01001100#8, 0b10101001#8] (.sbqBU 10 0b1001#4) ∧
    reads [0b10001100#8, 0b10101001#8] (.sbqWS 10 0b1001#4) ∧
    reads [0b11001100#8, 0b10101001#8] (.sbqBS 10 0b1001#4) ∧
    reads [0b00001011#8, 0b10100011#8] (.sbsWR 10 3) ∧
    reads [0b01001011#8, 0b10100011#8] (.sbsBR 10 3) ∧
    reads [0b10001011#8, 0b10100000#8, 0b00110100#8, 0b00010010#8] (.sbsWI 10 0x1234#16) ∧
    reads [0b11001011#8, 0b10100000#8, 0b10000001#8, 0b00000000#8] (.sbsBI 10 0b10000001#8) := by decide

theorem test_decode_arithmetic_2 :
    reads [0b00001101#8, 0b10100011#8] (.mulWR 10 3) ∧
    reads [0b01001101#8, 0b10100011#8] (.mulBR 10 3) ∧
    reads [0b10001101#8, 0b10100000#8, 0b00110100#8, 0b00010010#8] (.mulWI 10 0x1234#16) ∧
    reads [0b11001101#8, 0b10100000#8, 0b10000001#8, 0b00000000#8] (.mulBI 10 0b10000001#8) ∧
    reads [0b00001110#8, 0b10100011#8] (.mlsWR 10 3) ∧
    reads [0b01001110#8, 0b10100011#8] (.mlsBR 10 3) ∧
    reads [0b10001110#8, 0b10100000#8, 0b00110100#8, 0b00010010#8] (.mlsWI 10 0x1234#16) ∧
    reads [0b11001110#8, 0b10100000#8, 0b10000001#8, 0b00000000#8] (.mlsBI 10 0b10000001#8) ∧
    reads [0b00001111#8, 0b10100011#8] (.divWR 10 3) ∧
    reads [0b01001111#8, 0b10100011#8] (.divBR 10 3) ∧
    reads [0b10001111#8, 0b10100000#8, 0b00110100#8, 0b00010010#8] (.divWI 10 0x1234#16) ∧
    reads [0b11001111#8, 0b10100000#8, 0b10000001#8, 0b00000000#8] (.divBI 10 0b10000001#8) ∧
    reads [0b00010000#8, 0b10100011#8] (.dvsWR 10 3) ∧
    reads [0b01010000#8, 0b10100011#8] (.dvsBR 10 3) ∧
    reads [0b10010000#8, 0b10100000#8, 0b00110100#8, 0b00010010#8] (.dvsWI 10 0x1234#16) ∧
    reads [0b11010000#8, 0b10100000#8, 0b10000001#8, 0b00000000#8] (.dvsBI 10 0b10000001#8) ∧
    reads [0b10010100#8, 0b10100000#8] (.negW 10) ∧
    reads [0b11010100#8, 0b10100000#8] (.negB 10) := by decide

theorem test_decode_logic :
    reads [0b00010001#8, 0b10100011#8] (.andWR 10 3) ∧
    reads [0b01010001#8, 0b10100011#8] (.andBR 10 3) ∧
    reads [0b10010001#8, 0b10100000#8, 0b00110100#8, 0b00010010#8] (.andWI 10 0x1234#16) ∧
    reads [0b11010001#8, 0b10100000#8, 0b10000001#8, 0b00000000#8] (.andBI 10 0b10000001#8) ∧
    reads [0b00010010#8, 0b10100011#8] (.orWR 10 3) ∧
    reads [0b01010010#8, 0b10100011#8] (.orBR 10 3) ∧
    reads [0b10010010#8, 0b10100000#8, 0b00110100#8, 0b00010010#8] (.orWI 10 0x1234#16) ∧
    reads [0b11010010#8, 0b10100000#8, 0b10000001#8, 0b00000000#8] (.orBI 10 0b10000001#8) ∧
    reads [0b00010011#8, 0b10100011#8] (.xorWR 10 3) ∧
    reads [0b01010011#8, 0b10100011#8] (.xorBR 10 3) ∧
    reads [0b10010011#8, 0b10100000#8, 0b00110100#8, 0b00010010#8] (.xorWI 10 0x1234#16) ∧
    reads [0b11010011#8, 0b10100000#8, 0b10000001#8, 0b00000000#8] (.xorBI 10 0b10000001#8) ∧
    reads [0b00010100#8, 0b10100000#8] (.notW 10) ∧
    reads [0b01010100#8, 0b10100000#8] (.notB 10) ∧
    reads [0b00010101#8, 0b10101001#8] (.shlW 10 0b1001#4) ∧
    reads [0b01010101#8, 0b10101001#8] (.shlB 10 0b1001#4) ∧
    reads [0b10010101#8, 0b10101001#8] (.shrW 10 0b1001#4) ∧
    reads [0b11010101#8, 0b10101001#8] (.shrB 10 0b1001#4) ∧
    reads [0b00010110#8, 0b10101001#8] (.rolW 10 0b1001#4) ∧
    reads [0b01010110#8, 0b10101001#8] (.rolB 10 0b1001#4) ∧
    reads [0b10010110#8, 0b10101001#8] (.rorW 10 0b1001#4) ∧
    reads [0b11010110#8, 0b10101001#8] (.rorB 10 0b1001#4) ∧
    reads [0b10000101#8, 0b10100000#8] (.swpW 10) ∧
    reads [0b11000101#8, 0b10100000#8] (.swpB 10) := by decide

theorem test_decode_data_move_1 :
    reads [0b00000100#8, 0b10100011#8] (.cpyW 10 3) ∧
    reads [0b01000100#8, 0b10100011#8] (.cpyB 10 3) ∧
    reads [0b10000100#8, 0b10100000#8] (.clrW 10) ∧
    reads [0b11000100#8, 0b10100000#8] (.clrB 10) ∧
    reads [0b00000110#8, 0b10101001#8] (.stqW 10 0b1001#4) ∧
    reads [0b01000110#8, 0b10101001#8] (.stqB 10 0b1001#4) ∧
    reads [0b00000101#8, 0b10100011#8] (.excW 10 3) ∧
    reads [0b01000101#8, 0b10100011#8] (.excB 10 3) ∧
    reads [0b00000010#8, 0b10100011#8] (.lWR 10 3) ∧
    reads [0b01000010#8, 0b10100000#8, 0b00110100#8, 0b00010010#8] (.lWA 10 0x1234#16) ∧
    reads [0b10000010#8, 0b10100011#8] (.lBR 10 3) ∧
    reads [0b11000010#8, 0b10100000#8, 0b00110100#8, 0b00010010#8] (.lBA 10 0x1234#16) ∧
    reads [0b00000011#8, 0b10100011#8] (.sWR 10 3) ∧
    reads [0b01000011#8, 0b00000011#8, 0b00110100#8, 0b00010010#8] (.sWA 0x1234#16 3) ∧
    reads [0b10000011#8, 0b10100011#8] (.sBR 10 3) ∧
    reads [0b11000011#8, 0b00000011#8, 0b00110100#8, 0b00010010#8] (.sBA 0x1234#16 3) ∧
    reads [0b00000000#8, 0b10100000#8] (.pshWR 10) ∧
    reads [0b01000000#8, 0b10100000#8] (.pshBR 10) ∧
    reads [0b10000000#8, 0b00000000#8, 0b00110100#8, 0b00010010#8] (.pshWI 0x1234#16) ∧
    reads [0b11000000#8, 0b10000001#8] (.pshBI 0b10000001#8) ∧
    reads [0b00000001#8, 0b10100000#8] (.popW 10) ∧
    reads [0b01000001#8, 0b10100000#8] (.popB 10) ∧
    reads [0b00100100#8, 0b10100000#8] (.tsr 10) ∧
    reads [0b01100100#8, 0b10100000#8] (.trs 10) := by decide

theorem test_decode_data_move_2 :
    reads [0b10100100#8, 0b10100000#8] (.tpr 10) ∧
    reads [0b11100100#8, 0b10100000#8] (.trp 10) := by decide

theorem test_decode_compare :
    reads [0b00011001#8, 0b10100011#8] (.cmpWR 10 3) ∧
    reads [0b00011010#8, 0b10101001#8] (.cmpWQ 10 0b1001#4) ∧
    reads [0b01011001#8, 0b10100011#8] (.cmpBR 10 3) ∧
    reads [0b01011010#8, 0b10101001#8] (.cmpBQ 10 0b1001#4) ∧
    reads [0b10011001#8, 0b10100000#8, 0b00110100#8, 0b00010010#8] (.cmpWI 10 0x1234#16) ∧
    reads [0b11011001#8, 0b10100000#8, 0b10000001#8, 0b00000000#8] (.cmpBI 10 0b10000001#8) ∧
    reads [0b00011011#8, 0b10100000#8, 0b00110100#8, 0b00010010#8] (.dcpWI 10 0x1234#16) ∧
    reads [0b01011011#8, 0b10100000#8, 0b10000001#8, 0b00000000#8] (.dcpBI 10 0b10000001#8) ∧
    reads [0b10011011#8, 0b10100011#8] (.dcpWR 10 3) ∧
    reads [0b11011011#8, 0b10100011#8] (.dcpBR 10 3) ∧
    reads [0b10011010#8, 0b10100000#8] (.zcpW 10) ∧
    reads [0b11011010#8, 0b10100000#8] (.zcpB 10) := by decide

theorem test_decode_branch_1 :
    reads [0b00011100#8, 0b00000000#8, 0b00110100#8, 0b00010010#8] (.beqL 0x1234#16) ∧
    reads [0b01011100#8, 0b10000001#8] (.beqS 0b10000001#8) ∧
    reads [0b10100000#8, 0b00000000#8, 0b00110100#8, 0b00010010#8] (.bfeL 0x1234#16) ∧
    reads [0b11100000#8, 0b10000001#8] (.bfeS 0b10000001#8) ∧
    reads [0b10011110#8, 0b00000000#8, 0b00110100#8, 0b00010010#8] (.bftL 0x1234#16) ∧
    reads [0b11011110#8, 0b10000001#8] (.bftS 0b10000001#8) ∧
    reads [0b00011111#8, 0b00000000#8, 0b00110100#8, 0b00010010#8] (.bgeL 0x1234#16) ∧
    reads [0b01011111#8, 0b10000001#8] (.bgeS 0b10000001#8) ∧
    reads [0b00011101#8, 0b00000000#8, 0b00110100#8, 0b00010010#8] (.bgtL 0x1234#16) ∧
    reads [0b01011101#8, 0b10000001#8] (.bgtS 0b10000001#8) ∧
    reads [0b10011111#8, 0b00000000#8, 0b00110100#8, 0b00010010#8] (.bleL 0x1234#16) ∧
    reads [0b11011111#8, 0b10000001#8] (.bleS 0b10000001#8) ∧
    reads [0b10011101#8, 0b00000000#8, 0b00110100#8, 0b00010010#8] (.bltL 0x1234#16) ∧
    reads [0b11011101#8, 0b10000001#8] (.bltS 0b10000001#8) ∧
    reads [0b00100000#8, 0b00000000#8, 0b00110100#8, 0b00010010#8] (.bmeL 0x1234#16) ∧
    reads [0b01100000#8, 0b10000001#8] (.bmeS 0b10000001#8) ∧
    reads [0b00011110#8, 0b00000000#8, 0b00110100#8, 0b00010010#8] (.bmtL 0x1234#16) ∧
    reads [0b01011110#8, 0b10000001#8] (.bmtS 0b10000001#8) ∧
    reads [0b10011100#8, 0b00000000#8, 0b00110100#8, 0b00010010#8] (.bneL 0x1234#16) ∧
    reads [0b11011100#8, 0b10000001#8] (.bneS 0b10000001#8) ∧
    reads [0b10100001#8, 0b00000000#8, 0b00110100#8, 0b00010010#8] (.bnzL 0x1234#16) ∧
    reads [0b11100001#8, 0b10000001#8] (.bnzS 0b10000001#8) ∧
    reads [0b00011000#8, 0b00000000#8] .braR ∧
    reads [0b01011000#8, 0b00000000#8, 0b00110100#8, 0b00010010#8] (.braL 0x1234#16) := by decide

theorem test_decode_branch_2 :
    reads [0b10011000#8, 0b10000001#8] (.braS 0b10000001#8) ∧
    reads [0b00100010#8, 0b00000000#8, 0b00110100#8, 0b00010010#8] (.brcL 0x1234#16) ∧
    reads [0b01100010#8, 0b10000001#8] (.brcS 0b10000001#8) ∧
    reads [0b10100011#8, 0b00000000#8, 0b00110100#8, 0b00010010#8] (.brnL 0x1234#16) ∧
    reads [0b11100011#8, 0b10000001#8] (.brnS 0b10000001#8) ∧
    reads [0b10100010#8, 0b00000000#8, 0b00110100#8, 0b00010010#8] (.broL 0x1234#16) ∧
    reads [0b11100010#8, 0b10000001#8] (.broS 0b10000001#8) ∧
    reads [0b00100011#8, 0b00000000#8, 0b00110100#8, 0b00010010#8] (.brpL 0x1234#16) ∧
    reads [0b01100011#8, 0b10000001#8] (.brpS 0b10000001#8) ∧
    reads [0b00100001#8, 0b00000000#8, 0b00110100#8, 0b00010010#8] (.brzL 0x1234#16) ∧
    reads [0b01100001#8, 0b10000001#8] (.brzS 0b10000001#8) := by decide

theorem test_decode_jump :
    reads [0b00010111#8, 0b10100000#8] (.jmpR 10) ∧
    reads [0b01010111#8, 0b00000000#8, 0b00110100#8, 0b00010010#8] (.jmpA 0x1234#16) ∧
    reads [0b10010111#8, 0b10100000#8] (.jsrR 10) ∧
    reads [0b11010111#8, 0b00000000#8, 0b00110100#8, 0b00010010#8] (.jsrA 0x1234#16) ∧
    reads [0b11011000#8, 0b00000000#8] .ret := by decide

theorem test_decode_system :
    reads [0b01100101#8, 0b00000000#8] .ent ∧
    reads [0b10100101#8, 0b00000000#8] .lve ∧
    reads [0b11100101#8, 0b10010000#8] (.io 0b1001#4) ∧
    reads [0b00100101#8, 0b00000000#8] .rti := by decide

/-- Printed-zero bits that are 1 and unassigned opcodes are refused by name (R52, R53). -/
theorem test_decode_rejects :
    rejects [0x81#8, 0x00#8] ∧ rejects [0x26#8, 0x00#8] ∧ rejects [0xFF#8, 0xFF#8] ∧ rejects [0x14#8, 0x11#8] ∧
    rejects [0x43#8, 0x12#8, 0x00#8, 0x20#8] ∧ rejects [0xC7#8, 0x10#8, 0x80#8, 0x01#8] ∧ rejects [0x18#8, 0x10#8] ∧
    rejects [0x87#8, 0x10#8, 0x34#8] ∧ rejects [] := by decide

/-- The host's table words: the opcode byte is the most significant one, as in the table's own `match` (log 9). -/
theorem test_decodeTableWord :
    decodeTableWord 16 0x0712 = some (.addWR 1 2) ∧ decodeTableWord 32 0x87103412 = some (.addWI 1 0x1234#16) ∧
    decodeTableWord 32 0xC7108000 = some (.addBI 1 0x80#8) ∧ decodeTableWord 16 0xE520 = some (.io 2#4) ∧
    decodeTableWord 16 0x2600 = none := by decide

/-- The first step after reset runs the instruction of a table word. -/
theorem test_withFetchWord_runs :
    step (State.reset.withFetchWord 32 0x87103412) =
      exec (.addWI 1 0x1234#16) (State.reset.withFetchWord 32 0x87103412) ∧
    step (State.reset.withFetchWord 16 0x8110) = .fault (.illegalInstruction 0x0000#16) := ⟨rfl, rfl⟩

/-! ### One step of each instruction (rows of 95_test_vectors.md) -/

/-- Rows T4, T7, T8, T9. -/
theorem test_add :
    (after (boot [0x07#8, 0x11#8] [(1, 0x8000#16)] 0b0000#4) fun t => t.x 1 == 0x0000#16 &&
      t.flags == nvzc 0b0111#4 && t.pc == 0x1002#16) ∧
    (after (boot [0x47#8, 0x12#8] [(1, 0x127F#16), (2, 0x0001#16)] 0b0000#4) fun t => t.x 1 == 0x1280#16 &&
      t.flags == nvzc 0b1100#4 && t.pc == 0x1002#16) ∧
    (after (boot [0x87#8, 0x10#8, 0x34#8, 0x12#8] [(1, 0x1111#16)] 0b0000#4) fun t => t.x 1 == 0x2345#16 &&
      t.flags == nvzc 0b0000#4 && t.pc == 0x1004#16) ∧
    (after (boot [0xC7#8, 0x10#8, 0x80#8, 0x00#8] [(1, 0x5580#16)] 0b0000#4) fun t => t.x 1 == 0x5500#16 &&
      t.flags == nvzc 0b0111#4 && t.pc == 0x1004#16) := by decide

/-- Rows T15, T17, T16, T20. -/
theorem test_adq :
    (after (boot [0x09#8, 0x1F#8] [(1, 0xFFF1#16)] 0b0000#4) fun t => t.x 1 == 0x0000#16 &&
      t.flags == nvzc 0b0011#4 && t.pc == 0x1002#16) ∧
    (after (boot [0x89#8, 0x1F#8] [(1, 0x0000#16)] 0b0000#4) fun t => t.x 1 == 0xFFFF#16 &&
      t.flags == nvzc 0b1000#4 && t.pc == 0x1002#16) ∧
    (after (boot [0x49#8, 0x11#8] [(1, 0x00FF#16)] 0b0000#4) fun t => t.x 1 == 0x0000#16 &&
      t.flags == nvzc 0b0011#4 && t.pc == 0x1002#16) ∧
    (after (boot [0xC9#8, 0x1F#8] [(1, 0xAB01#16)] 0b0000#4) fun t => t.x 1 == 0xAB00#16 &&
      t.flags == nvzc 0b0011#4 && t.pc == 0x1002#16) := by decide

/-- Rows T12, T13, T14; the other byte form worked by hand from the same rule. -/
theorem test_ads :
    (after (boot [0x08#8, 0x12#8] [(1, 0xFFFF#16), (2, 0x0001#16)] 0b0000#4) fun t => t.x 1 == 0x0000#16 &&
      t.flags == nvzc 0b0011#4 && t.pc == 0x1002#16) ∧
    (after (boot [0x88#8, 0x10#8, 0xFF#8, 0xFF#8] [(1, 0x0005#16)] 0b0000#4) fun t => t.x 1 == 0x0004#16 &&
      t.flags == nvzc 0b0001#4 && t.pc == 0x1004#16) ∧
    (after (boot [0xC8#8, 0x10#8, 0xFF#8, 0x00#8] [(1, 0x3405#16)] 0b0000#4) fun t => t.x 1 == 0x3404#16 &&
      t.flags == nvzc 0b0001#4 && t.pc == 0x1004#16) ∧
    (after (boot [0x48#8, 0x12#8] [(1, 0x3405#16), (2, 0x00FF#16)] 0b0000#4) fun t => t.x 1 == 0x3404#16 &&
      t.flags == nvzc 0b0001#4 && t.pc == 0x1002#16) := by decide

/-- Rows T22, T26, T25, T27. -/
theorem test_sub :
    (after (boot [0x0A#8, 0x12#8] [(1, 0x8000#16), (2, 0x0001#16)] 0b0000#4) fun t => t.x 1 == 0x7FFF#16 &&
      t.flags == nvzc 0b0100#4 && t.pc == 0x1002#16) ∧
    (after (boot [0x8A#8, 0x10#8, 0x00#8, 0x01#8] [(1, 0x0100#16)] 0b0000#4) fun t => t.x 1 == 0x0000#16 &&
      t.flags == nvzc 0b0010#4 && t.pc == 0x1004#16) ∧
    (after (boot [0x4A#8, 0x12#8] [(1, 0x7700#16), (2, 0x0001#16)] 0b0000#4) fun t => t.x 1 == 0x77FF#16 &&
      t.flags == nvzc 0b1001#4 && t.pc == 0x1002#16) ∧
    (after (boot [0xCA#8, 0x10#8, 0x01#8, 0x00#8] [(1, 0x1280#16)] 0b0000#4) fun t => t.x 1 == 0x127F#16 &&
      t.flags == nvzc 0b0100#4 && t.pc == 0x1004#16) := by decide

/-- Rows T32, T34, T33, T36. -/
theorem test_sbq :
    (after (boot [0x0C#8, 0x1F#8] [(1, 0x0005#16)] 0b0000#4) fun t => t.x 1 == 0xFFF6#16 &&
      t.flags == nvzc 0b1001#4 && t.pc == 0x1002#16) ∧
    (after (boot [0x8C#8, 0x1F#8] [(1, 0x7FFF#16)] 0b0000#4) fun t => t.x 1 == 0x8000#16 &&
      t.flags == nvzc 0b1101#4 && t.pc == 0x1002#16) ∧
    (after (boot [0x4C#8, 0x11#8] [(1, 0x4200#16)] 0b0000#4) fun t => t.x 1 == 0x42FF#16 &&
      t.flags == nvzc 0b1001#4 && t.pc == 0x1002#16) ∧
    (after (boot [0xCC#8, 0x18#8] [(1, 0x00F8#16)] 0b0000#4) fun t => t.x 1 == 0x0000#16 &&
      t.flags == nvzc 0b0010#4 && t.pc == 0x1002#16) := by decide

/-- Rows T28, T29, T30; the other byte form worked by hand from the same rule. -/
theorem test_sbs :
    (after (boot [0x0B#8, 0x12#8] [(1, 0x7FFF#16), (2, 0xFFFF#16)] 0b0000#4) fun t => t.x 1 == 0x8000#16 &&
      t.flags == nvzc 0b1101#4 && t.pc == 0x1002#16) ∧
    (after (boot [0x8B#8, 0x10#8, 0x01#8, 0x00#8] [(1, 0x8000#16)] 0b0000#4) fun t => t.x 1 == 0x7FFF#16 &&
      t.flags == nvzc 0b0100#4 && t.pc == 0x1004#16) ∧
    (after (boot [0xCB#8, 0x10#8, 0x7F#8, 0x00#8] [(1, 0x0080#16)] 0b0000#4) fun t => t.x 1 == 0x0001#16 &&
      t.flags == nvzc 0b0100#4 && t.pc == 0x1004#16) ∧
    (after (boot [0x4B#8, 0x12#8] [(1, 0x0080#16), (2, 0x007F#16)] 0b0000#4) fun t => t.x 1 == 0x0001#16 &&
      t.flags == nvzc 0b0100#4 && t.pc == 0x1002#16) := by decide

/-- Rows T38, T42, T41, T43. -/
theorem test_mul :
    (after (boot [0x0D#8, 0x12#8] [(1, 0x0100#16), (2, 0x0100#16)] 0b0000#4) fun t => t.x 1 == 0x0000#16 &&
      t.flags == nvzc 0b0111#4 && t.pc == 0x1002#16) ∧
    (after (boot [0x8D#8, 0x10#8, 0x02#8, 0x00#8] [(1, 0x4000#16)] 0b0000#4) fun t => t.x 1 == 0x8000#16 &&
      t.flags == nvzc 0b1000#4 && t.pc == 0x1004#16) ∧
    (after (boot [0x4D#8, 0x12#8] [(1, 0xAA10#16), (2, 0x0010#16)] 0b0000#4) fun t => t.x 1 == 0xAA00#16 &&
      t.flags == nvzc 0b0111#4 && t.pc == 0x1002#16) ∧
    (after (boot [0xCD#8, 0x10#8, 0x03#8, 0x00#8] [(1, 0x0005#16)] 0b0000#4) fun t => t.x 1 == 0x000F#16 &&
      t.flags == nvzc 0b0000#4 && t.pc == 0x1004#16) := by decide

/-- Rows T46, T49, T48, T50. -/
theorem test_mls :
    (after (boot [0x0E#8, 0x12#8] [(1, 0x4000#16), (2, 0x0002#16)] 0b0000#4) fun t => t.x 1 == 0x8000#16 &&
      t.flags == nvzc 0b1101#4 && t.pc == 0x1002#16) ∧
    (after (boot [0x8E#8, 0x10#8, 0xFF#8, 0xFF#8] [(1, 0x0005#16)] 0b0000#4) fun t => t.x 1 == 0xFFFB#16 &&
      t.flags == nvzc 0b1000#4 && t.pc == 0x1004#16) ∧
    (after (boot [0x4E#8, 0x12#8] [(1, 0x00FF#16), (2, 0x00FF#16)] 0b0000#4) fun t => t.x 1 == 0x0001#16 &&
      t.flags == nvzc 0b0000#4 && t.pc == 0x1002#16) ∧
    (after (boot [0xCE#8, 0x10#8, 0x10#8, 0x00#8] [(1, 0x0010#16)] 0b0000#4) fun t => t.x 1 == 0x0000#16 &&
      t.flags == nvzc 0b0111#4 && t.pc == 0x1004#16) := by decide

/-- Rows T52, T57, T56; the other byte form worked by hand from the same rule. -/
theorem test_div :
    (after (boot [0x0F#8, 0x12#8] [(1, 0xFFFF#16), (2, 0x0001#16)] 0b0000#4) fun t => t.x 1 == 0xFFFF#16 &&
      t.flags == nvzc 0b1000#4 && t.pc == 0x1002#16) ∧
    (after (boot [0x8F#8, 0x10#8, 0x0A#8, 0x00#8] [(1, 0x03E8#16)] 0b0000#4) fun t => t.x 1 == 0x0064#16 &&
      t.flags == nvzc 0b0000#4 && t.pc == 0x1004#16) ∧
    (after (boot [0x4F#8, 0x12#8] [(1, 0x12C8#16), (2, 0xFF0A#16)] 0b0000#4) fun t => t.x 1 == 0x1214#16 &&
      t.flags == nvzc 0b0000#4 && t.pc == 0x1002#16) ∧
    (after (boot [0xCF#8, 0x10#8, 0x0A#8, 0x00#8] [(1, 0x12C8#16)] 0b0000#4) fun t => t.x 1 == 0x1214#16 &&
      t.flags == nvzc 0b0000#4 && t.pc == 0x1004#16) := by decide

/-- Rows T62, T65, T59, T66. -/
theorem test_dvs :
    (after (boot [0x10#8, 0x12#8] [(1, 0x8000#16), (2, 0xFFFF#16)] 0b0000#4) fun t => t.x 1 == 0x8000#16 &&
      t.flags == nvzc 0b1100#4 && t.pc == 0x1002#16) ∧
    (after (boot [0x90#8, 0x10#8, 0xFD#8, 0xFF#8] [(1, 0x000A#16)] 0b0000#4) fun t => t.x 1 == 0xFFFD#16 &&
      t.flags == nvzc 0b1000#4 && t.pc == 0x1004#16) ∧
    (after (boot [0x10#8, 0x12#8] [(1, 0xFFF9#16), (2, 0x0002#16)] 0b0000#4) fun t => t.x 1 == 0xFFFD#16 &&
      t.flags == nvzc 0b1000#4 && t.pc == 0x1002#16) ∧
    (after (boot [0xD0#8, 0x10#8, 0x02#8, 0x00#8] [(1, 0x00F9#16)] 0b0000#4) fun t => t.x 1 == 0x00FD#16 &&
      t.flags == nvzc 0b1000#4 && t.pc == 0x1004#16) := by decide

/-- Rows T67, T71. -/
theorem test_neg :
    (after (boot [0x94#8, 0x10#8] [(1, 0x0001#16)] 0b0111#4) fun t => t.x 1 == 0xFFFF#16 &&
      t.flags == nvzc 0b0111#4 && t.pc == 0x1002#16) ∧
    (after (boot [0xD4#8, 0x10#8] [(1, 0x1280#16)] 0b0000#4) fun t => t.x 1 == 0x1280#16 &&
      t.flags == nvzc 0b0000#4 && t.pc == 0x1002#16) := by decide

/-- Rows T72, T75, T74, T76. -/
theorem test_and :
    (after (boot [0x11#8, 0x12#8] [(1, 0xF0F0#16), (2, 0xFF00#16)] 0b0101#4) fun t => t.x 1 == 0xF000#16 &&
      t.flags == nvzc 0b1000#4 && t.pc == 0x1002#16) ∧
    (after (boot [0x91#8, 0x10#8, 0xFF#8, 0x00#8] [(1, 0xABCD#16)] 0b0000#4) fun t => t.x 1 == 0x00CD#16 &&
      t.flags == nvzc 0b0000#4 && t.pc == 0x1004#16) ∧
    (after (boot [0x51#8, 0x12#8] [(1, 0x12F0#16), (2, 0xFF8F#16)] 0b0000#4) fun t => t.x 1 == 0x1280#16 &&
      t.flags == nvzc 0b1000#4 && t.pc == 0x1002#16) ∧
    (after (boot [0xD1#8, 0x10#8, 0x0F#8, 0x00#8] [(1, 0xABCD#16)] 0b0000#4) fun t => t.x 1 == 0xAB0D#16 &&
      t.flags == nvzc 0b0000#4 && t.pc == 0x1004#16) := by decide

/-- Rows T77, T80, T79; the other byte form worked by hand from the same rule. -/
theorem test_or :
    (after (boot [0x12#8, 0x12#8] [(1, 0x8001#16), (2, 0x0110#16)] 0b0000#4) fun t => t.x 1 == 0x8111#16 &&
      t.flags == nvzc 0b1000#4 && t.pc == 0x1002#16) ∧
    (after (boot [0x92#8, 0x10#8, 0x00#8, 0x80#8] [(1, 0x0001#16)] 0b0000#4) fun t => t.x 1 == 0x8001#16 &&
      t.flags == nvzc 0b1000#4 && t.pc == 0x1004#16) ∧
    (after (boot [0xD2#8, 0x10#8, 0x80#8, 0x00#8] [(1, 0x0001#16)] 0b0000#4) fun t => t.x 1 == 0x0081#16 &&
      t.flags == nvzc 0b1000#4 && t.pc == 0x1004#16) ∧
    (after (boot [0x52#8, 0x12#8] [(1, 0x0001#16), (2, 0xFF80#16)] 0b0000#4) fun t => t.x 1 == 0x0081#16 &&
      t.flags == nvzc 0b1000#4 && t.pc == 0x1002#16) := by decide

/-- Rows T81, T84, T83, T85. -/
theorem test_xor :
    (after (boot [0x13#8, 0x12#8] [(1, 0xFFFF#16), (2, 0x00FF#16)] 0b0000#4) fun t => t.x 1 == 0xFF00#16 &&
      t.flags == nvzc 0b1000#4 && t.pc == 0x1002#16) ∧
    (after (boot [0x93#8, 0x10#8, 0xFF#8, 0xFF#8] [(1, 0x00FF#16)] 0b0000#4) fun t => t.x 1 == 0xFF00#16 &&
      t.flags == nvzc 0b1000#4 && t.pc == 0x1004#16) ∧
    (after (boot [0x53#8, 0x12#8] [(1, 0x12FF#16), (2, 0x000F#16)] 0b0000#4) fun t => t.x 1 == 0x12F0#16 &&
      t.flags == nvzc 0b1000#4 && t.pc == 0x1002#16) ∧
    (after (boot [0xD3#8, 0x10#8, 0xFF#8, 0x00#8] [(1, 0x12FF#16)] 0b0000#4) fun t => t.x 1 == 0x1200#16 &&
      t.flags == nvzc 0b0010#4 && t.pc == 0x1004#16) := by decide

/-- Rows T86, T88. -/
theorem test_not :
    (after (boot [0x14#8, 0x10#8] [(1, 0x00FF#16)] 0b0000#4) fun t => t.x 1 == 0xFF00#16 &&
      t.flags == nvzc 0b1000#4 && t.pc == 0x1002#16) ∧
    (after (boot [0x54#8, 0x10#8] [(1, 0x12F0#16)] 0b0000#4) fun t => t.x 1 == 0x120F#16 &&
      t.flags == nvzc 0b0000#4 && t.pc == 0x1002#16) := by decide

/-- Rows T94, T97. -/
theorem test_shl :
    (after (boot [0x15#8, 0x1F#8] [(1, 0x0003#16)] 0b0000#4) fun t => t.x 1 == 0x8000#16 &&
      t.flags == nvzc 0b0001#4 && t.pc == 0x1002#16) ∧
    (after (boot [0x55#8, 0x19#8] [(1, 0x1201#16)] 0b0000#4) fun t => t.x 1 == 0x1200#16 &&
      t.flags == nvzc 0b0001#4 && t.pc == 0x1002#16) := by decide

/-- Rows T100, T103. -/
theorem test_shr :
    (after (boot [0x95#8, 0x14#8] [(1, 0x8230#16)] 0b1111#4) fun t => t.x 1 == 0x0823#16 &&
      t.flags == nvzc 0b1110#4 && t.pc == 0x1002#16) ∧
    (after (boot [0xD5#8, 0x11#8] [(1, 0xFF81#16)] 0b0000#4) fun t => t.x 1 == 0xFF40#16 &&
      t.flags == nvzc 0b0001#4 && t.pc == 0x1002#16) := by decide

/-- Rows T105, T109. -/
theorem test_rol :
    (after (boot [0x16#8, 0x14#8] [(1, 0x1234#16)] 0b1011#4) fun t => t.x 1 == 0x2341#16 &&
      t.flags == nvzc 0b1011#4 && t.pc == 0x1002#16) ∧
    (after (boot [0x56#8, 0x19#8] [(1, 0xAB81#16)] 0b0000#4) fun t => t.x 1 == 0xAB03#16 &&
      t.flags == nvzc 0b0000#4 && t.pc == 0x1002#16) := by decide

/-- Rows T111, T114. -/
theorem test_ror :
    (after (boot [0x96#8, 0x14#8] [(1, 0x1234#16)] 0b0000#4) fun t => t.x 1 == 0x4123#16 &&
      t.flags == nvzc 0b0000#4 && t.pc == 0x1002#16) ∧
    (after (boot [0xD6#8, 0x1C#8] [(1, 0xAB12#16)] 0b0000#4) fun t => t.x 1 == 0xAB21#16 &&
      t.flags == nvzc 0b0000#4 && t.pc == 0x1002#16) := by decide

/-- Rows T115, T116. -/
theorem test_swp :
    (after (boot [0x85#8, 0x10#8] [(1, 0x1234#16)] 0b1011#4) fun t => t.x 1 == 0x3412#16 &&
      t.flags == nvzc 0b1011#4 && t.pc == 0x1002#16) ∧
    (after (boot [0xC5#8, 0x10#8] [(1, 0x12A5#16)] 0b0000#4) fun t => t.x 1 == 0x125A#16 &&
      t.flags == nvzc 0b0000#4 && t.pc == 0x1002#16) := by decide

/-- Rows T118, T120. -/
theorem test_cpy :
    (after (boot [0x04#8, 0x12#8] [(1, 0x1111#16), (2, 0x8000#16)] 0b0111#4) fun t => t.x 1 == 0x8000#16 &&
      t.flags == nvzc 0b1000#4 && t.pc == 0x1002#16) ∧
    (after (boot [0x44#8, 0x12#8] [(1, 0x1111#16), (2, 0xFF7F#16)] 0b1111#4) fun t => t.x 1 == 0x117F#16 &&
      t.flags == nvzc 0b0000#4 && t.pc == 0x1002#16) := by decide

/-- Rows T122, T123. -/
theorem test_clr :
    (after (boot [0x84#8, 0x10#8] [(1, 0xBEEF#16)] 0b1101#4) fun t => t.x 1 == 0x0000#16 &&
      t.flags == nvzc 0b0010#4 && t.pc == 0x1002#16) ∧
    (after (boot [0xC4#8, 0x10#8] [(1, 0xBEEF#16)] 0b1101#4) fun t => t.x 1 == 0xBE00#16 &&
      t.flags == nvzc 0b0010#4 && t.pc == 0x1002#16) := by decide

/-- Rows T125, T127. -/
theorem test_stq :
    (after (boot [0x06#8, 0x19#8] [(1, 0xBEEF#16)] 0b0000#4) fun t => t.x 1 == 0x0009#16 && t.flags.z == false &&
      t.pc == 0x1002#16) ∧
    (after (boot [0x46#8, 0x1F#8] [(1, 0xBEEF#16)] 0b0000#4) fun t => t.x 1 == 0xBE0F#16 && t.flags.z == false &&
      t.pc == 0x1002#16) := by decide

/-- Rows T128, T129. -/
theorem test_exc :
    (after (boot [0x05#8, 0x12#8] [(1, 0x1111#16), (2, 0x2222#16)] 0b1111#4) fun t => t.x 1 == 0x2222#16 &&
      t.x 2 == 0x1111#16 && t.flags == nvzc 0b0000#4 && t.pc == 0x1002#16) ∧
    (after (boot [0x45#8, 0x12#8] [(1, 0x11AA#16), (2, 0x22BB#16)] 0b1111#4) fun t => t.x 1 == 0x11BB#16 &&
      t.x 2 == 0x22AA#16 && t.flags == nvzc 0b0000#4 && t.pc == 0x1002#16) := by decide

/-- Rows T132, T134, T135, T136. -/
theorem test_l :
    (after (poke (poke (boot [0x02#8, 0x12#8] [(1, 0x0000#16), (2,
      0xFFFF#16)] 0b0000#4) 0xFFFF#16 0x34#8) 0x0000#16 0x12#8) fun t => t.x 1 == 0x1234#16 &&
      t.flags == nvzc 0b0000#4 && t.pc == 0x1002#16) ∧
    (after (poke (poke (boot [0x42#8, 0x10#8, 0x00#8, 0x20#8] [(1,
      0x0000#16)] 0b0000#4) 0x2000#16 0x34#8) 0x2001#16 0x12#8) fun t => t.x 1 == 0x1234#16 &&
      t.flags == nvzc 0b0000#4 && t.pc == 0x1004#16) ∧
    (after (poke (poke (boot [0x82#8, 0x12#8] [(1, 0xAB00#16), (2,
      0x2001#16)] 0b0000#4) 0x2000#16 0x34#8) 0x2001#16 0x92#8) fun t => t.x 1 == 0xAB92#16 &&
      t.flags == nvzc 0b1000#4 && t.pc == 0x1002#16) ∧
    (after (poke (boot [0xC2#8, 0x10#8, 0x00#8, 0x20#8] [(1, 0xABFF#16)] 0b1000#4) 0x2000#16 0x00#8) fun t =>
      t.x 1 == 0xAB00#16 && t.flags == nvzc 0b0010#4 && t.pc == 0x1004#16) := by decide

/-- Rows T139, T141, T142, T143. -/
theorem test_s :
    (after (boot [0x03#8, 0x12#8] [(1, 0xFFFF#16), (2, 0x1234#16)] 0b0000#4) fun t => t.x 1 == 0xFFFF#16 &&
      t.flags == nvzc 0b0000#4 && t.pc == 0x1002#16 && t.mem.readByte 0xFFFF#16 == 0x34#8 &&
      t.mem.readByte 0x0000#16 == 0x12#8) ∧
    (after (boot [0x43#8, 0x02#8, 0x00#8, 0x20#8] [(2, 0xBEEF#16)] 0b0000#4) fun t => t.x 2 == 0xBEEF#16 &&
      t.flags == nvzc 0b0000#4 && t.pc == 0x1004#16 && t.mem.readByte 0x2000#16 == 0xEF#8 &&
      t.mem.readByte 0x2001#16 == 0xBE#8) ∧
    (after (boot [0x83#8, 0x12#8] [(1, 0x2000#16), (2, 0x1234#16)] 0b0000#4) fun t => t.x 1 == 0x2000#16 &&
      t.flags == nvzc 0b0000#4 && t.pc == 0x1002#16 && t.mem.readByte 0x2000#16 == 0x34#8) ∧
    (after (boot [0xC3#8, 0x02#8, 0x00#8, 0x20#8] [(2, 0xBEEF#16)] 0b0000#4) fun t => t.x 2 == 0xBEEF#16 &&
      t.flags == nvzc 0b0000#4 && t.pc == 0x1004#16 && t.mem.readByte 0x2000#16 == 0xEF#8) := by decide

/-- Rows T145, T146, T147, T148. -/
theorem test_psh :
    (after ((boot [0x00#8, 0x10#8] [(1, 0x1234#16)] 0b1010#4).setSp 0x8000#16) fun t => t.x 1 == 0x1234#16 &&
      t.flags == nvzc 0b1010#4 && t.pc == 0x1002#16 && t.sp == 0x7FFE#16 && t.mem.readByte 0x7FFE#16 == 0x34#8 &&
      t.mem.readByte 0x7FFF#16 == 0x12#8) ∧
    (after ((boot [0x40#8, 0x10#8] [(1, 0x1234#16)] 0b0000#4).setSp 0x8000#16) fun t => t.x 1 == 0x1234#16 &&
      t.flags == nvzc 0b0000#4 && t.pc == 0x1002#16 && t.sp == 0x7FFF#16 && t.mem.readByte 0x7FFF#16 == 0x34#8) ∧
    (after ((boot [0x80#8, 0x00#8, 0xEF#8, 0xBE#8] [] 0b0000#4).setSp 0x8000#16) fun t =>
      t.flags == nvzc 0b0000#4 && t.pc == 0x1004#16 && t.sp == 0x7FFE#16 && t.mem.readByte 0x7FFE#16 == 0xEF#8 &&
      t.mem.readByte 0x7FFF#16 == 0xBE#8) ∧
    (after ((boot [0xC0#8, 0x7F#8] [] 0b0000#4).setSp 0x8000#16) fun t => t.flags == nvzc 0b0000#4 &&
      t.pc == 0x1002#16 && t.sp == 0x7FFF#16 && t.mem.readByte 0x7FFF#16 == 0x7F#8) := by decide

/-- Rows T154, T153. -/
theorem test_pop :
    (after (poke (poke ((boot [0x01#8, 0x10#8] [(1,
      0x0000#16)] 0b0000#4).setSp 0xFFFF#16) 0xFFFF#16 0x34#8) 0x0000#16 0x12#8) fun t => t.x 1 == 0x1234#16 &&
      t.flags == nvzc 0b0000#4 && t.pc == 0x1002#16 && t.sp == 0x0001#16) ∧
    (after (poke ((boot [0x41#8, 0x10#8] [(1,
      0xAB00#16)] 0b1000#4).setSp 0x7FFF#16) 0x7FFF#16 0x00#8) fun t => t.x 1 == 0xAB00#16 &&
      t.flags == nvzc 0b0010#4 && t.pc == 0x1002#16 && t.sp == 0x8000#16) := by decide

/-- Row T155. -/
theorem test_tsr :
    (after ((boot [0x24#8, 0x10#8] [(1, 0x0000#16)] 0b1111#4).setSp 0x8000#16) fun t => t.x 1 == 0x8000#16 &&
      t.flags == nvzc 0b1111#4 && t.pc == 0x1002#16 && t.sp == 0x8000#16) := by decide

/-- Row T156. -/
theorem test_trs :
    (after ((boot [0x64#8, 0x10#8] [(1, 0x7F00#16)] 0b0000#4).setSp 0x8000#16) fun t => t.x 1 == 0x7F00#16 &&
      t.flags == nvzc 0b0000#4 && t.pc == 0x1002#16 && t.sp == 0x7F00#16) := by decide

/-- Row T157. -/
theorem test_tpr :
    (after ((boot [0xA4#8, 0x10#8] [(1, 0x0000#16)] 0b0000#4).setPcs 0x9000#16) fun t => t.x 1 == 0x9000#16 &&
      t.flags == nvzc 0b0000#4 && t.pc == 0x1002#16 && t.pcs == 0x9000#16) := by decide

/-- Row T158. -/
theorem test_trp :
    (after ((boot [0xE4#8, 0x10#8] [(1, 0x7E00#16)] 0b0000#4).setPcs 0x9000#16) fun t => t.x 1 == 0x7E00#16 &&
      t.flags == nvzc 0b0000#4 && t.pc == 0x1002#16 && t.pcs == 0x7E00#16) := by decide

/-- Rows T164, T168, T170, T167, T169, T172. -/
theorem test_cmp :
    (after (boot [0x19#8, 0x12#8] [(1, 0x7FFF#16), (2, 0xFFFF#16)] 0b0000#4) fun t => t.x 1 == 0x7FFF#16 &&
      t.flags == nvzc 0b1101#4 && t.pc == 0x1002#16) ∧
    (after (boot [0x99#8, 0x10#8, 0x34#8, 0x12#8] [(1, 0x1234#16)] 0b0000#4) fun t => t.x 1 == 0x1234#16 &&
      t.flags == nvzc 0b0010#4 && t.pc == 0x1004#16) ∧
    (after (boot [0x1A#8, 0x17#8] [(1, 0x0007#16)] 0b0000#4) fun t => t.x 1 == 0x0007#16 &&
      t.flags == nvzc 0b0010#4 && t.pc == 0x1002#16) ∧
    (after (boot [0x59#8, 0x12#8] [(1, 0x0080#16), (2, 0x0001#16)] 0b0000#4) fun t => t.x 1 == 0x0080#16 &&
      t.flags == nvzc 0b0100#4 && t.pc == 0x1002#16) ∧
    (after (boot [0xD9#8, 0x10#8, 0xFF#8, 0x00#8] [(1, 0x0000#16)] 0b0000#4) fun t => t.x 1 == 0x0000#16 &&
      t.flags == nvzc 0b0001#4 && t.pc == 0x1004#16) ∧
    (after (boot [0x5A#8, 0x1F#8] [(1, 0xAB10#16)] 0b0000#4) fun t => t.x 1 == 0xAB10#16 &&
      t.flags == nvzc 0b0000#4 && t.pc == 0x1002#16) := by decide

/-- Rows T181, T176, T179, T180. -/
theorem test_dcp :
    (after (boot [0x1B#8, 0x10#8, 0x00#8, 0x80#8] [(1, 0x8000#16)] 0b0000#4) fun t => t.x 1 == 0x7FFF#16 &&
      t.flags == nvzc 0b1101#4 && t.pc == 0x1004#16) ∧
    (after (boot [0x5B#8, 0x10#8, 0x10#8, 0x00#8] [(1, 0xAB11#16)] 0b0000#4) fun t => t.x 1 == 0xAB10#16 &&
      t.flags == nvzc 0b0010#4 && t.pc == 0x1004#16) ∧
    (after (boot [0x9B#8, 0x11#8] [(1, 0x0006#16)] 0b0000#4) fun t => t.x 1 == 0x0005#16 &&
      t.flags == nvzc 0b0010#4 && t.pc == 0x1002#16) ∧
    (after (boot [0xDB#8, 0x12#8] [(1, 0x1280#16), (2, 0x0001#16)] 0b0000#4) fun t => t.x 1 == 0x127F#16 &&
      t.flags == nvzc 0b0000#4 && t.pc == 0x1002#16) := by decide

/-- Rows T182, T184. -/
theorem test_zcp :
    (after (boot [0x9A#8, 0x10#8] [(1, 0x0000#16)] 0b1101#4) fun t => t.x 1 == 0x0000#16 &&
      t.flags == nvzc 0b1111#4 && t.pc == 0x1002#16) ∧
    (after (boot [0xDA#8, 0x10#8] [(1, 0xAB00#16)] 0b1000#4) fun t => t.x 1 == 0xAB00#16 &&
      t.flags == nvzc 0b1010#4 && t.pc == 0x1002#16) := by decide

/-- Rows T200, T196, T194. -/
theorem test_bra :
    (after (boot [0x18#8, 0x00#8] [(0, 0xFFFE#16)] 0b0000#4) fun t => t.x 0 == 0xFFFE#16 &&
      t.flags == nvzc 0b0000#4 && t.pc == 0x0FFE#16) ∧
    (after (boot [0x58#8, 0x00#8, 0x00#8, 0xF0#8] [] 0b0000#4) fun t => t.flags == nvzc 0b0000#4 &&
      t.pc == 0x0000#16) ∧
    (after (boot [0x98#8, 0x80#8] [] 0b0000#4) fun t => t.flags == nvzc 0b0000#4 && t.pc == 0x0F80#16) := by decide

/-- Rows T224, T225. -/
theorem test_jmp :
    (after (poke (poke (boot [0x17#8, 0x10#8] [(1,
      0x2000#16)] 0b0000#4) 0x2000#16 0x55#8) 0x2001#16 0x66#8) fun t => t.x 1 == 0x2000#16 &&
      t.flags == nvzc 0b0000#4 && t.pc == 0x2000#16) ∧
    (after (boot [0x57#8, 0x00#8, 0x45#8, 0x23#8] [] 0b1111#4) fun t => t.flags == nvzc 0b1111#4 &&
      t.pc == 0x2345#16) := by decide

/-- Rows T229, T232. -/
theorem test_jsr :
    (after ((boot [0x97#8, 0x10#8] [(1, 0x2000#16)] 0b0000#4).setPcs 0x9000#16) fun t => t.x 1 == 0x2000#16 &&
      t.flags == nvzc 0b0000#4 && t.pc == 0x2000#16 && t.pcs == 0x8FFE#16 && t.mem.readByte 0x8FFE#16 == 0x02#8 &&
      t.mem.readByte 0x8FFF#16 == 0x10#8) ∧
    (after ((boot [0xD7#8, 0x00#8, 0x45#8, 0x23#8] [] 0b0000#4).setPcs 0x0001#16) fun t =>
      t.flags == nvzc 0b0000#4 && t.pc == 0x2345#16 && t.pcs == 0xFFFF#16 && t.mem.readByte 0xFFFF#16 == 0x04#8 &&
      t.mem.readByte 0x0000#16 == 0x10#8) := by decide

/-- Row T233. -/
theorem test_ret :
    (after (poke (poke ((boot [0xD8#8,
      0x00#8] [] 0b1010#4).setPcs 0x8FFE#16) 0x8FFE#16 0x04#8) 0x8FFF#16 0x10#8) fun t =>
      t.flags == nvzc 0b1010#4 && t.pc == 0x1004#16 && t.pcs == 0x9000#16) := by decide

/-- Row T236. -/
theorem test_ent :
    (after ((boot [0x65#8, 0x00#8] [] 0b1111#4).setPcs 0x9000#16) fun t => t.flags == nvzc 0b0000#4 &&
      t.pcs == 0x8FFE#16 && t.prot == true && t.mem.readByte 0x8FFE#16 == 0x02#8 &&
      t.mem.readByte 0x8FFF#16 == 0x10#8) := by decide

/-- Row T239. -/
theorem test_lve :
    (after (((boot [0xA5#8, 0x00#8] [] 0b1111#4).setPcs 0x9000#16).setProt true) fun t =>
      t.flags == nvzc 0b0000#4 && t.pcs == 0x8FFE#16 && t.prot == false && t.mem.readByte 0x8FFE#16 == 0x02#8 &&
      t.mem.readByte 0x8FFF#16 == 0x10#8) := by decide

/-- Row T241. -/
theorem test_io :
    (after (boot [0xE5#8, 0x20#8] [] 0b1010#4) fun t => t.flags == nvzc 0b1010#4 && t.pc == 0x1002#16 &&
      t.iopins == 2#2) := by decide

/-- Row T249. -/
theorem test_rti :
    (after (poke (poke (((boot [0x25#8,
      0x00#8] [] 0b1010#4).setPcs 0x8FFE#16).setProt true) 0x8FFE#16 0x02#8) 0x8FFF#16 0x10#8) fun t =>
      t.flags == nvzc 0b1010#4 && t.pc == 0x1002#16 && t.pcs == 0x9000#16 && t.prot == true) := by decide

/-- Where a branch with offset +16 (short) or +256 (long) at $1000 goes, from a state with the given flags. -/
def goesTo (code : List Byte) (target : Word) (f : BitVec 4) : Bool := after (boot code [] f) fun t => t.pc == target

/-- The flag states in which a conditional branch is taken: both forms are taken in exactly these. -/
def takenIn (short long : Byte) (states : List (BitVec 4)) : Bool :=
  (List.range 16).all fun k =>
    let f := BitVec.ofNat 4 k
    if states.contains f then
      goesTo [short, 0x10#8] 0x1010#16 f && goesTo [long, 0x00#8, 0x00#8, 0x01#8] 0x1100#16 f
    else goesTo [short, 0x10#8] 0x1002#16 f && goesTo [long, 0x00#8, 0x00#8, 0x01#8] 0x1004#16 f

/-- The row of `beq` in section 2.6. -/
theorem test_beq : takenIn 0x5C#8 0x1C#8
    [0b0010#4, 0b0011#4, 0b0110#4, 0b0111#4, 0b1010#4, 0b1011#4, 0b1110#4, 0b1111#4] := by decide

/-- The row of `bfe` in section 2.6. -/
theorem test_bfe : takenIn 0xE0#8 0xA0#8
    [0b0010#4, 0b0011#4, 0b0110#4, 0b0111#4, 0b1010#4, 0b1011#4, 0b1110#4, 0b1111#4] := by decide

/-- The row of `bft` in section 2.6. -/
theorem test_bft : takenIn 0xDE#8 0x9E#8
    [0b0011#4, 0b0111#4, 0b1011#4, 0b1111#4] := by decide

/-- The row of `bge` in section 2.6. -/
theorem test_bge : takenIn 0x5F#8 0x1F#8
    [0b0000#4, 0b0001#4, 0b0010#4, 0b0011#4, 0b0100#4, 0b0101#4, 0b0110#4, 0b0111#4, 0b1000#4, 0b1001#4, 0b1010#4,
      0b1011#4, 0b1100#4, 0b1101#4, 0b1110#4, 0b1111#4] := by decide

/-- The row of `bgt` in section 2.6. -/
theorem test_bgt : takenIn 0x5D#8 0x1D#8
    [0b0000#4, 0b0001#4, 0b1100#4, 0b1101#4] := by decide

/-- The row of `ble` in section 2.6. -/
theorem test_ble : takenIn 0xDF#8 0x9F#8
    [0b0010#4, 0b0011#4, 0b0100#4, 0b0101#4, 0b0110#4, 0b0111#4, 0b1000#4, 0b1001#4, 0b1010#4, 0b1011#4, 0b1110#4,
      0b1111#4] := by decide

/-- The row of `blt` in section 2.6. -/
theorem test_blt : takenIn 0xDD#8 0x9D#8
    [0b0100#4, 0b0101#4, 0b0110#4, 0b0111#4, 0b1000#4, 0b1001#4, 0b1010#4, 0b1011#4] := by decide

/-- The row of `bme` in section 2.6. -/
theorem test_bme : takenIn 0x60#8 0x20#8
    [0b0000#4, 0b0010#4, 0b0011#4, 0b0100#4, 0b0110#4, 0b0111#4, 0b1000#4, 0b1010#4, 0b1011#4, 0b1100#4, 0b1110#4,
      0b1111#4] := by decide

/-- The row of `bmt` in section 2.6. -/
theorem test_bmt : takenIn 0x5E#8 0x1E#8
    [0b0000#4, 0b0100#4, 0b1000#4, 0b1100#4] := by decide

/-- The row of `bne` in section 2.6. -/
theorem test_bne : takenIn 0xDC#8 0x9C#8
    [0b0000#4, 0b0001#4, 0b0100#4, 0b0101#4, 0b1000#4, 0b1001#4, 0b1100#4, 0b1101#4] := by decide

/-- The row of `bnz` in section 2.6. -/
theorem test_bnz : takenIn 0xE1#8 0xA1#8
    [0b0000#4, 0b0001#4, 0b0100#4, 0b0101#4, 0b1000#4, 0b1001#4, 0b1100#4, 0b1101#4] := by decide

/-- The row of `brc` in section 2.6. -/
theorem test_brc : takenIn 0x62#8 0x22#8
    [0b0001#4, 0b0011#4, 0b0101#4, 0b0111#4, 0b1001#4, 0b1011#4, 0b1101#4, 0b1111#4] := by decide

/-- The row of `brn` in section 2.6. -/
theorem test_brn : takenIn 0xE3#8 0xA3#8
    [0b1000#4, 0b1001#4, 0b1010#4, 0b1011#4, 0b1100#4, 0b1101#4, 0b1110#4, 0b1111#4] := by decide

/-- The row of `bro` in section 2.6. -/
theorem test_bro : takenIn 0xE2#8 0xA2#8
    [0b0100#4, 0b0101#4, 0b0110#4, 0b0111#4, 0b1100#4, 0b1101#4, 0b1110#4, 0b1111#4] := by decide

/-- The row of `brp` in section 2.6. -/
theorem test_brp : takenIn 0x63#8 0x23#8
    [0b0000#4, 0b0001#4, 0b0010#4, 0b0011#4, 0b0100#4, 0b0101#4, 0b0110#4, 0b0111#4] := by decide

/-- The row of `brz` in section 2.6. -/
theorem test_brz : takenIn 0x61#8 0x21#8
    [0b0010#4, 0b0011#4, 0b0110#4, 0b0111#4, 0b1010#4, 0b1011#4, 0b1110#4, 0b1111#4] := by decide

/-! ### Faults -/

/-- Rows T54, T58. -/
theorem test_fault_div_by_zero :
    (step (boot [0x0F#8, 0x12#8] [(1, 0x0007#16), (2, 0x0000#16)] 0b1010#4) = .fault (.divideByZero 0x1000#16)) ∧
    (step (boot [0xCF#8, 0x10#8, 0x00#8, 0x00#8] [(1, 0x0005#16)] 0b0000#4) = .fault (.divideByZero 0x1000#16)) := by
  exact ⟨rfl, rfl⟩

/-- Row T63. -/
theorem test_fault_dvs_by_zero :
    (step (boot [0x10#8, 0x12#8] [(1, 0x8000#16), (2, 0x0000#16)] 0b0000#4) = .fault (.divideByZero 0x1000#16)) := by
  rfl

/-- Row T237. -/
theorem test_fault_ent_in_protected_mode :
    (step (((boot [0x65#8,
      0x00#8] [] 0b1111#4).setPcs 0x9000#16).setProt true) = .fault (.protectionViolation 0x1000#16)) := by
  rfl

/-- Rows T245, T246. -/
theorem test_fault_io_in_protected_mode :
    (step ((boot [0xE5#8, 0x20#8] [] 0b0000#4).setProt true) = .fault (.protectionViolation 0x1000#16)) ∧
    (step ((boot [0xE5#8, 0x40#8] [] 0b0000#4).setProt true) = .fault (.protectionViolation 0x1000#16)) := by
  exact ⟨rfl, rfl⟩

/-- Row T244. -/
theorem test_fault_io_field_above_3 :
    (step (boot [0xE5#8, 0x40#8] [] 0b0000#4) = .fault (.illegalInstruction 0x1000#16)) := by
  rfl

/-- Rows T10, T11, T137, T144, T198, T201, T228. -/
theorem test_fault_printed_zero_bits :
    (step (boot [0xC7#8, 0x10#8, 0x80#8, 0x01#8] [(1,
      0x5580#16)] 0b0000#4) = .fault (.illegalInstruction 0x1000#16)) ∧
    (step (boot [0x87#8, 0x11#8, 0x34#8, 0x12#8] [(1,
      0x1111#16)] 0b0000#4) = .fault (.illegalInstruction 0x1000#16)) ∧
    (step (boot [0x42#8, 0x11#8, 0x00#8, 0x20#8] [(1,
      0x0000#16)] 0b0000#4) = .fault (.illegalInstruction 0x1000#16)) ∧
    (step (boot [0x43#8, 0x12#8, 0x00#8, 0x20#8] [(2,
      0xBEEF#16)] 0b0000#4) = .fault (.illegalInstruction 0x1000#16)) ∧
    (step (boot [0x58#8, 0x01#8, 0x00#8, 0xF0#8] [] 0b0000#4) = .fault (.illegalInstruction 0x1000#16)) ∧
    (step (boot [0x18#8, 0x10#8] [(0, 0x0020#16), (1,
      0x0040#16)] 0b0000#4) = .fault (.illegalInstruction 0x1000#16)) ∧
    (step (boot [0x57#8, 0x10#8, 0x45#8, 0x23#8] [] 0b0000#4) = .fault (.illegalInstruction 0x1000#16)) := by
  exact ⟨rfl, rfl, rfl, rfl, rfl, rfl, rfl⟩

/-- Rows T252, T253, T256, T257. -/
theorem test_fault_unassigned_opcodes :
    (step (boot [0x26#8, 0x00#8] [] 0b0000#4) = .fault (.illegalInstruction 0x1000#16)) ∧
    (step (boot [0x81#8, 0x10#8] [] 0b0000#4) = .fault (.illegalInstruction 0x1000#16)) ∧
    (step (boot [0xC6#8, 0x00#8] [] 0b0000#4) = .fault (.illegalInstruction 0x1000#16)) ∧
    (step (boot [0xFF#8, 0xFF#8] [] 0b0000#4) = .fault (.illegalInstruction 0x1000#16)) := by
  exact ⟨rfl, rfl, rfl, rfl⟩

/-! ### Witnesses: each hypothesis of a statement is met, each clause at a boundary -/

/-- A state with code at $1000, every flag 1 and a memory cell on either side of the wrap. -/
def sample (code : List Byte) : State :=
  poke (poke (((boot code [(1, 0x8000#16), (2,
    0xFFFF#16)] 0b1111#4).setSp 0x0000#16).setPcs 0xFFFF#16) 0xFFFF#16 0x34#8)
    0x0000#16 0x12#8

/-- The sample states meet `Memory.wf`. -/
theorem witness_sample_canonical : (sample [0x07#8, 0x12#8]).mem.wf = true ∧ (sample []).mem.wf = true := by decide

/-- `EncodeInvertsDecode`: its hypotheses are met. -/
theorem witness_EncodeInvertsDecode : decode [0x07#8, 0x12#8, 0xAA#8] = .ok (.addWR 1 2, [0xAA#8]) := rfl

/-- `OpcodeByteDecidesLength`: its hypotheses are met. -/
theorem witness_OpcodeByteDecidesLength :
    Unassigned 0x26#8 ∧ Unassigned 0x3F#8 ∧ Unassigned 0x81#8 ∧ Unassigned 0xC6#8 ∧ Unassigned 0xFF#8 ∧
    ¬ Unassigned 0x25#8 ∧ ¬ Unassigned 0x00#8 ∧ ¬ Unassigned 0xE5#8 := by
  unfold Unassigned; decide

/-- `UnassignedOpcodesFault`: its hypotheses are met. -/
theorem witness_UnassignedOpcodesFault :
    let s := sample [0x81#8, 0x10#8]
    Unassigned (s.mem.readByte s.pc) := Or.inl (by decide)

/-- The hypothesis of `PrintedZeroBitsFault` in one state. -/
def zeroSetAt (s : State) : Prop :=
  PrintedZeroSet (s.mem.readByte s.pc) (s.mem.readByte (s.pc + 1#16)) (s.mem.readByte (s.pc + 3#16))

/-- `PrintedZeroBitsFault`: its hypotheses are met. -/
theorem witness_PrintedZeroBitsFault :
    zeroSetAt (sample [0x14#8, 0x11#8]) ∧
    zeroSetAt (sample [0x43#8, 0x12#8, 0x00#8, 0x20#8]) ∧
    zeroSetAt (sample [0x18#8, 0x10#8]) ∧
    zeroSetAt (sample [0xC7#8, 0x10#8, 0x80#8, 0x01#8]) ∧
    ¬ Unassigned ((sample [0xC7#8, 0x10#8, 0x80#8, 0x00#8]).mem.readByte 0x1000#16) ∧
    ¬ zeroSetAt (sample [0xC7#8, 0x10#8, 0x80#8, 0x00#8]) :=
  ⟨by unfold zeroSetAt PrintedZeroSet; decide, by unfold zeroSetAt PrintedZeroSet; decide,
    by unfold zeroSetAt PrintedZeroSet; decide,
    by unfold zeroSetAt PrintedZeroSet; decide, by unfold Unassigned; decide,
    by unfold zeroSetAt PrintedZeroSet; decide⟩

/-- `StepRunsDecodedInstruction`: its hypotheses are met. -/
theorem witness_StepRunsDecodedInstruction :
    let s := sample [0xE5#8, 0x20#8]
    decode (s.mem.readBytes s.pc 4) = .ok (.io 2#4, [0x00#8, 0x00#8]) := rfl

/-- `StoredInstructionRunsNext`: its hypotheses are met. -/
theorem witness_StoredInstructionRunsNext : (sample []).mem.wf = true ∧
  ((sample []).setPc 0xFFFE#16).mem.wf = true := by
  decide

/-- `WritesReadBack`: its hypotheses are met. -/
theorem witness_WritesReadBack :
    (sample []).mem.wf = true ∧ (0x0001#16 : Word) ≠ 0xFFFF#16 ∧ (0x0001#16 : Word) ≠ 0xFFFF#16 + 1#16 := by decide

/-- `EqualReadsAreEqualMemory`: its hypotheses are met. -/
theorem witness_EqualReadsAreEqualMemory :
    let m : Memory := { cells := [] }
    let a := (m.writeByte 0x0000#16 0x12#8).writeByte 0xFFFF#16 0x34#8
    let b := ((m.writeByte 0xFFFF#16 0x34#8).writeByte 0x0000#16 0x56#8).writeByte 0x0000#16 0x12#8
    a.wf = true ∧ b.wf = true ∧ ∀ c : Word, a.readByte c = b.readByte c := ⟨rfl, rfl, fun _ => rfl⟩

/-- `StepKeepsMemoryCanonical`: its hypotheses are met. -/
theorem witness_StepKeepsMemoryCanonical :
    ∃ t, (sample [0x03#8, 0x21#8]).mem.wf = true ∧ step (sample [0x03#8, 0x21#8]) = .next t ∧
      t.mem.readByte 0xFFFF#16 = 0x00#8 := ⟨_, rfl, rfl, by decide⟩

/-- `ResetValues`: its hypotheses are met. -/
theorem witness_ResetValues : ResetParams.chosen.mem.wf = true := rfl

/-- `FlagsAfterComparisonAreOrder`, the register forms of `dcp`: two registers that differ. -/
theorem witness_FlagsAfterComparisonAreOrder : (2 : Reg) ≠ 1 := by decide

/-- `DivWritesFloorQuotient`, `DvsWritesTruncatedQuotient`, `ZeroDivisorFaults`: divisors that are and are not zero; a byte
divisor is zero where bits 15:8 of its register are not. -/
theorem witness_division :
    (sample []).xr 2 .word ≠ 0#16 ∧ (sample []).xr 2 .byte ≠ 0#8 ∧ (sample []).xr 3 .word = 0#16 ∧
    (sample []).xr 1 .byte = 0#8 ∧ (0xFFFF#16 : Word) ≠ 0#16 ∧ (0xFF#8 : Byte) ≠ 0#8 := by decide

/-- `StoresWriteRegisterToMemory`, `PushesStoreBelowStackTop`, `PopUndoesPush`: a canonical memory, and addresses inside and
outside the stored bytes where they wrap. -/
theorem witness_stores_and_stacks :
    (sample []).mem.wf = true ∧ Stored .word 0xFFFF#16 0x0000#16 ∧ ¬ Stored .word 0xFFFF#16 0x0001#16 ∧
    ¬ Stored .byte 0xFFFF#16 0x0000#16 := by
  unfold Stored; decide

/-- `BranchesAfterCompareOrder`: its hypotheses are met. -/
theorem witness_BranchesAfterCompareOrder :
    (∃ t, exec (.cmpWR 1 2) (sample []) = .next t) ∧ (∃ t, exec (.cmpWI 1 0x8000#16) (sample []) = .next t) ∧
    (∃ t, exec (.cmpWQ 1 15#4) (sample []) = .next t) ∧ (∃ t, exec (.cmpBR 1 2) (sample []) = .next t) ∧
    (∃ t, exec (.cmpBI 1 0x80#8) (sample []) = .next t) ∧ ∃ t, exec (.cmpBQ 1 0#4) (sample []) = .next t :=
  ⟨⟨_, rfl⟩, ⟨_, rfl⟩, ⟨_, rfl⟩, ⟨_, rfl⟩, ⟨_, rfl⟩, ⟨_, rfl⟩⟩

/-- `JsrPushesReturnAddress`, `ReturnUndoesCall`, `EntEntersProtectedModeAndCalls`, `LveLeavesProtectedModeAndCalls`,
`IoDrivesPinsOrFaults`, `RtiReturnsAfterInterruptCall`: a canonical memory, both modes, the field values 3 and 4. -/
theorem witness_calls_and_modes :
    (sample []).mem.wf = true ∧ (sample []).prot = false ∧ ((sample []).setProt true).prot = true ∧
    (3#4 : Nibble).toNat ≤ 3 ∧ 3 < (4#4 : Nibble).toNat := by decide

/-- `BranchesAfterCompareOrder`: the relations of R151 hold of some registers and fail of others. -/
theorem witness_BranchesByOrder_relations :
    let s := sample []
    (s.xr 1 .word).toNat < (s.xr 2 .word).toNat ∧ (s.xr 1 .word).toInt < (s.xr 2 .word).toInt ∧
    (s.xr 2 .word).toInt < (s.xr 3 .word).toInt ∧ (s.xr 3 .word).toNat < (s.xr 2 .word).toNat ∧
    s.xr 1 .byte = s.xr 3 .byte ∧ s.xr 1 .word ≠ s.xr 2 .word := by decide

/-- `ModeChangesOnlyByEntAndLve`: its hypotheses are met. -/
theorem witness_ModeChangesOnlyByEntAndLve :
    (∃ t, step (sample [0x65#8, 0x00#8]) = .next t ∧ t.prot = true) ∧
    (∃ t, step ((sample [0xA5#8, 0x00#8]).setProt true) = .next t ∧ t.prot = false) ∧
    ∃ t, step ((sample [0x25#8, 0x00#8]).setProt true) = .next t ∧ t.prot = true :=
  ⟨⟨_, rfl, rfl⟩, ⟨_, rfl, rfl⟩, ⟨_, rfl, rfl⟩⟩

/-- `ProtectedRunsKeepPins`: its hypotheses are met. -/
theorem witness_ProtectedRunsKeepPins :
    (∃ t, step (sample [0xE5#8, 0x20#8]) = .next t ∧ t.iopins ≠ (sample [0xE5#8, 0x20#8]).iopins) ∧
    ∃ t, ((sample [0x98#8, 0x00#8]).setProt true).prot = true ∧
      RunsThrough (fun u => u.fetch ≠ .ok .lve) 2 ((sample [0x98#8, 0x00#8]).setProt true) t := by
  refine ⟨⟨_, rfl, by decide⟩, _, rfl, ?_, _, rfl, ?_, _, rfl, rfl⟩ <;>
    · intro h
      change (Except.ok (.braS 0#8) : Except DecodeError Instr) = .ok .lve at h
      cases h

/-- `MemoryChangesOnlyWhereStored`: its hypotheses are met. -/
theorem witness_MemoryChangesOnlyWhereStored :
    (∃ t, exec (.sWA 0xFFFF#16 1) (sample []) = .next t) ∧ storesTo (.sWA 0xFFFF#16 1) (sample []) = some (.word,
      0xFFFF#16) ∧
    (∃ t, exec .ent (sample []) = .next t) ∧ storesTo .ent (sample []) = some (.word, 0xFFFD#16) ∧
    (∃ t, exec (.popW 1) (sample []) = .next t) ∧ storesTo (.popW 1) (sample []) = none :=
  ⟨⟨_, rfl⟩, rfl, ⟨_, rfl⟩, rfl, ⟨_, rfl⟩, rfl⟩

/-- `StackRegistersMoveOnlyByTheirInstructions`: its hypotheses are met. -/
theorem witness_StackRegistersMoveOnlyByTheirInstructions :
    (∃ t, exec (.jsrA 0x2345#16) (sample []) = .next t) ∧ movesSp (.jsrA 0x2345#16) = false ∧
    (∃ t, exec (.pshWR 1) (sample []) = .next t) ∧ movesPcs (.pshWR 1) = false := ⟨⟨_, rfl⟩, rfl, ⟨_, rfl⟩, rfl⟩

/-- `FlagsFollowTheirTables`: its hypotheses are met. -/
theorem witness_FlagsFollowTheirTables :
    ∃ t, exec (.shlW 1 1#4) (sample []) = .next t ∧ t.flags = nvzc 0b1111#4 ∧
      flagTable (.shlW 1 1#4) = ⟨.kept, .kept, .kept, .computed⟩ := ⟨_, rfl, by decide, rfl⟩

/-- `FaultsAreExactlyTheTable`: its hypotheses are met. -/
theorem witness_FaultsAreExactlyTheTable :
    (∃ f, FaultCause (sample [0x81#8, 0x00#8]) f) ∧ (∃ f, FaultCause (sample [0xE5#8, 0x40#8]) f) ∧
    (∃ f, FaultCause ((sample [0x65#8, 0x00#8]).setProt true) f) ∧ ∃ f, FaultCause (sample [0x0F#8, 0x13#8]) f :=
  ⟨⟨.illegalInstruction 0x1000#16, rfl, .inl (.inl (by decide))⟩,
    ⟨.illegalInstruction 0x1000#16, rfl, .inr (.inr ⟨4#4, rfl, rfl, by decide⟩)⟩,
    ⟨.protectionViolation 0x1000#16, rfl, rfl, .inl rfl⟩,
    ⟨.divideByZero 0x1000#16, rfl, .divWR 1 3, rfl, rfl⟩⟩

/-- `ModeMattersOnlyToEntAndIo`: its hypotheses are met. -/
theorem witness_ModeMattersOnlyToEntAndIo :
    (Instr.lve ≠ .ent ∧ ∀ n, Instr.lve ≠ .io n) ∧ Instr.rti ≠ .ent ∧ Instr.rti ≠ .lve ∧ ∀ n, Instr.rti ≠ .io n :=
  ⟨⟨by decide, fun n h => by cases h⟩, by decide, by decide, fun n h => by cases h⟩

/-- The idle loop that ends a run is seen as one (R211), and a run of length 0 ends there. -/
theorem test_spinsInPlace :
    spinsInPlace (sample [0x98#8, 0x00#8]) = true ∧ spinsInPlace (sample [0x98#8, 0x02#8]) = false ∧
    RunEnds spinsInPlace 0 (sample [0x98#8, 0x00#8]) (sample [0x98#8, 0x00#8]) := ⟨rfl, rfl, rfl, rfl⟩

end Sys2Proof.Tests
end

section
/-! SUPPORT. Reset (R22 of 10_state.md): one lemma for each field, and the statement `ResetValues`. -/

namespace Sys2Proof.Machine

@[simp] theorem State.resetFrom_regs (r : ResetParams) : (State.resetFrom r).regs = r.regs := rfl
@[simp] theorem State.resetFrom_pc (r : ResetParams) : (State.resetFrom r).pc = r.pc := rfl
@[simp] theorem State.resetFrom_flags (r : ResetParams) : (State.resetFrom r).flags = r.flags := rfl
@[simp] theorem State.resetFrom_sp (r : ResetParams) : (State.resetFrom r).sp = r.sp := rfl
@[simp] theorem State.resetFrom_pcs (r : ResetParams) : (State.resetFrom r).pcs = r.pcs := rfl
@[simp] theorem State.resetFrom_prot (r : ResetParams) : (State.resetFrom r).prot = false := rfl
@[simp] theorem State.resetFrom_iopins (r : ResetParams) : (State.resetFrom r).iopins = r.iopins := rfl
@[simp] theorem State.resetFrom_mem (r : ResetParams) : (State.resetFrom r).mem = r.mem := rfl

/-- The model's own choice for `MEM_INIT` is canonical (log 3). -/
theorem ResetParams.wf_chosen_mem : ResetParams.chosen.mem.wf := Memory.wf_empty

/-- Settles O12: each clause about `State.resetFrom` is the lemma of one field, and a canonical image stays canonical
because `mem` is the image itself; `State.reset` is the state of the chosen values. -/
theorem resetValues : Obligations.ResetValues := by
  unfold Obligations.ResetValues
  refine ⟨fun r => ?_, ?_, ?_, ?_⟩
  · simp
  · exact State.resetFrom_prot ResetParams.chosen
  · exact ResetParams.wf_chosen_mem
  · exact ⟨ResetParams.chosen, rfl⟩

end Sys2Proof.Machine
end

section
/-! SUPPORT. The flags after each shared operation, and the statement `FlagsFollowTheirTables` (R25 of 10_state.md). An
operation whose four flags are all computed or drawn needs no lemma here: R25 leaves the value of such a flag free. -/

namespace Sys2Proof.Machine

/-! ### What each shared operation does to the flags -/

section
variable {w : Width} {p q : Reg} {len : Nat} {s t : State}

/-- The bitwise instructions: N and Z from the result, V and C cleared (R99). -/
theorem writeLogic_flags {r : BitVec w.bits} (h : writeLogic w p r len s = .next t) : t.flags = logicFlags r := by
  cases h; rfl

/-- `cpy`: as the bitwise instructions, from the copied value (R105). -/
theorem copyReg_flags (h : copyReg w p q len s = .next t) : t.flags = logicFlags (s.xr q w) := by
  cases h; rfl

/-- `clr`: the flags of a zero result (R106). -/
theorem clearReg_flags (h : clearReg w p len s = .next t) :
    t.flags = { n := false, v := false, z := true, c := false } := by
  cases h; rfl

/-- `exc`: all four flags cleared (R108). -/
theorem exchange_flags (h : exchange w p q len s = .next t) : t.flags = clearedFlags := by
  cases h; rfl

/-- `ent`: all four flags cleared (R167). -/
theorem enterProtected_flags (h : enterProtected len s = .next t) : t.flags = clearedFlags := by
  obtain ⟨-, rfl⟩ := enterProtected_next h
  simp [State.callInterrupt_eq]

/-- `lve`: all four flags cleared (R168). -/
theorem leaveProtected_flags (h : leaveProtected len s = .next t) : t.flags = clearedFlags := by
  cases h; simp [State.callInterrupt_eq]

/-- `l`: N and Z from the loaded value (R109). -/
theorem loadReg_flags {addr : Word} (h : loadReg w p addr len s = .next t) :
    t.flags = setNZ (s.mem.readAt w addr) s.flags := by
  cases h; rfl

/-- `pop`: N and Z from the popped value (R112). -/
theorem popInto_flags (h : popInto w p len s = .next t) : t.flags = setNZ (s.mem.readAt w s.sp) s.flags := by
  cases h; rfl

/-- `shl` and `shr`: C alone is written (R94, R95). -/
theorem writeShift_flags {r : BitVec w.bits} {carry : Bool} (h : writeShift w p r carry len s = .next t) :
    t.flags = { s.flags with c := carry } := by
  cases h; rfl

/-- `zcp`: Z alone is written (R127). -/
theorem zeroCompare_flags (h : zeroCompare w p len s = .next t) :
    t.flags = { s.flags with z := decide (s.xr p w = 0#w.bits) } := by
  cases h; rfl

/-- `neg` writes no flag (R83). -/
theorem negate_flags (h : negate w p len s = .next t) : t.flags = s.flags := by
  cases h; rfl

/-- `rol`, `ror` and `swp` write no flag (R96 to R98). -/
theorem writeQuietly_flags {r : BitVec w.bits} (h : writeQuietly w p r len s = .next t) : t.flags = s.flags := by
  cases h; rfl

/-- `s` writes no flag (R110). -/
theorem storeReg_flags {addr : Word} (h : storeReg w addr q len s = .next t) : t.flags = s.flags := by
  cases h; rfl

/-- `psh` writes no flag (R111). -/
theorem push_flags {v : BitVec w.bits} (h : push w v len s = .next t) : t.flags = s.flags := by
  cases h; rfl

/-- A conditional branch writes no flag, taken or not (R152). -/
theorem branchIf_flags {table : List CondRow} {target : Word} (h : branchIf table target len s = .next t) :
    t.flags = s.flags := by
  rw [branchIf_eq] at h
  cases h; rfl

/-- `bra` writes no flag (R145). -/
theorem jumpTo_flags {target : Word} (h : jumpTo target s = .next t) : t.flags = s.flags := by
  cases h; rfl

/-- `jmp` writes no flag (R160). -/
theorem jumpAbsolute_flags {target : Word} (h : jumpAbsolute target s = .next t) : t.flags = s.flags := by
  cases h; rfl

/-- `jsr` writes no flag (R161). -/
theorem callTo_flags {target : Word} (h : callTo target len s = .next t) : t.flags = s.flags := by
  cases h; rfl

/-- `io` writes no flag (R169). -/
theorem drivePins_flags {n : Nibble} (h : drivePins n len s = .next t) : t.flags = s.flags := by
  obtain ⟨-, -, rfl⟩ := drivePins_next h
  rfl

/-- A return leaves the flags (R162, R170). -/
@[simp] theorem State.popPc_flags (s : State) : s.popPc.flags = s.flags := rfl

/-- `tsr` writes no flag (R113). -/
theorem execTsr_flags (h : execTsr p s = .next t) : t.flags = s.flags := by
  cases h; rfl

/-- `trs` writes no flag (R114). -/
theorem execTrs_flags (h : execTrs p s = .next t) : t.flags = s.flags := by
  cases h; rfl

/-- `tpr` writes no flag (R115). -/
theorem execTpr_flags (h : execTpr p s = .next t) : t.flags = s.flags := by
  cases h; rfl

/-- `trp` writes no flag (R116). -/
theorem execTrp_flags (h : execTrp p s = .next t) : t.flags = s.flags := by
  cases h; rfl

/-- `ret` writes no flag (R162). -/
theorem execRet_flags (h : execRet s = .next t) : t.flags = s.flags := by
  cases h; exact s.popPc_flags

/-- `rti` writes no flag (R170). -/
theorem execRti_flags (h : execRti s = .next t) : t.flags = s.flags := by
  cases h; rw [State.returnFromInterrupt_eq, State.popPc_flags]

end

end Sys2Proof.Machine

namespace Sys2Proof.Safety

open Sys2Proof.Machine

/-! ### The rows of R25 -/

section
variable {before after : Flags}

/-- The row of the arithmetic and of `cmp` and `dcp` asks nothing. -/
theorem FlagTable.holds_computed : FlagTable.Holds ⟨.computed, .computed, .computed, .computed⟩ before after :=
  ⟨trivial, trivial, trivial, trivial⟩

/-- The row of `stq` asks nothing: a drawn flag is free, and Z is computed. -/
theorem FlagTable.holds_drawn : FlagTable.Holds ⟨.drawn, .drawn, .computed, .drawn⟩ before after :=
  ⟨trivial, trivial, trivial, trivial⟩

/-- The row of the bitwise instructions and of `cpy`. -/
theorem FlagTable.holds_logicFlags {w : Nat} {r : BitVec w} (h : after = logicFlags r) :
    FlagTable.Holds ⟨.computed, .zero, .computed, .zero⟩ before after := by
  subst h; exact ⟨trivial, rfl, trivial, rfl⟩

/-- The row of `clr`. -/
theorem FlagTable.holds_zeroResult (h : after = { n := false, v := false, z := true, c := false }) :
    FlagTable.Holds ⟨.zero, .zero, .one, .zero⟩ before after := by
  subst h; exact ⟨rfl, rfl, rfl, rfl⟩

/-- The row of `exc`, `ent` and `lve`. -/
theorem FlagTable.holds_clearedFlags (h : after = clearedFlags) :
    FlagTable.Holds ⟨.zero, .zero, .zero, .zero⟩ before after := by
  subst h; exact ⟨rfl, rfl, rfl, rfl⟩

/-- The row of `l` and `pop`. -/
theorem FlagTable.holds_setNZ {w : Nat} {r : BitVec w} (h : after = setNZ r before) :
    FlagTable.Holds ⟨.computed, .kept, .computed, .kept⟩ before after := by
  subst h; exact ⟨trivial, rfl, trivial, rfl⟩

/-- The row of `shl` and `shr`. -/
theorem FlagTable.holds_carryOnly {carry : Bool} (h : after = { before with c := carry }) :
    FlagTable.Holds ⟨.kept, .kept, .kept, .computed⟩ before after := by
  subst h; exact ⟨rfl, rfl, rfl, trivial⟩

/-- The row of `zcp`. -/
theorem FlagTable.holds_zeroOnly {zero : Bool} (h : after = { before with z := zero }) :
    FlagTable.Holds ⟨.kept, .kept, .computed, .kept⟩ before after := by
  subst h; exact ⟨rfl, rfl, trivial, rfl⟩

/-- The row of every instruction that writes no flag. -/
theorem FlagTable.holds_kept (h : after = before) : FlagTable.Holds ⟨.kept, .kept, .kept, .kept⟩ before after := by
  subst h; exact ⟨rfl, rfl, rfl, rfl⟩

end

/-- Settles O58, row by row of R25: an instruction's shared operation says which flags it leaves, and those flags meet
the row. -/
theorem flagsFollowTheirTables : Obligations.FlagsFollowTheirTables := by
  unfold Obligations.FlagsFollowTheirTables
  intro i s t h
  cases i with
  -- add, adq, ads, sub, sbq, sbs, mul, mls, div, dvs, cmp, dcp
  | addWR | addBR | addWI | addBI | adqWU | adqBU | adqWS | adqBS | adsWR | adsBR | adsWI | adsBI
  | subWR | subBR | subWI | subBI | sbqWU | sbqBU | sbqWS | sbqBS | sbsWR | sbsBR | sbsWI | sbsBI
  | mulWR | mulBR | mulWI | mulBI | mlsWR | mlsBR | mlsWI | mlsBI
  | divWR | divBR | divWI | divBI | dvsWR | dvsBR | dvsWI | dvsBI
  | cmpWR | cmpWQ | cmpBR | cmpBQ | cmpWI | cmpBI | dcpWI | dcpBI | dcpWR | dcpBR =>
    exact FlagTable.holds_computed
  -- and, or, xor, not, cpy
  | andWR | andBR | andWI | andBI | orWR | orBR | orWI | orBI | xorWR | xorBR | xorWI | xorBI | notW | notB =>
    exact FlagTable.holds_logicFlags (writeLogic_flags h)
  | cpyW | cpyB => exact FlagTable.holds_logicFlags (copyReg_flags h)
  -- clr
  | clrW | clrB => exact FlagTable.holds_zeroResult (clearReg_flags h)
  -- exc, ent, lve
  | excW | excB => exact FlagTable.holds_clearedFlags (exchange_flags h)
  | ent => exact FlagTable.holds_clearedFlags (enterProtected_flags h)
  | lve => exact FlagTable.holds_clearedFlags (leaveProtected_flags h)
  -- l, pop
  | lWR | lWA | lBR | lBA => exact FlagTable.holds_setNZ (loadReg_flags h)
  | popW | popB => exact FlagTable.holds_setNZ (popInto_flags h)
  -- shl, shr
  | shlW | shlB | shrW | shrB => exact FlagTable.holds_carryOnly (writeShift_flags h)
  -- stq
  | stqW | stqB => exact FlagTable.holds_drawn
  -- zcp
  | zcpW | zcpB => exact FlagTable.holds_zeroOnly (zeroCompare_flags h)
  -- the instructions that write no flag
  | negW | negB => exact FlagTable.holds_kept (negate_flags h)
  | rolW | rolB | rorW | rorB | swpW | swpB => exact FlagTable.holds_kept (writeQuietly_flags h)
  | sWR | sWA | sBR | sBA => exact FlagTable.holds_kept (storeReg_flags h)
  | pshWR | pshBR | pshWI | pshBI => exact FlagTable.holds_kept (push_flags h)
  | tsr => exact FlagTable.holds_kept (execTsr_flags h)
  | trs => exact FlagTable.holds_kept (execTrs_flags h)
  | tpr => exact FlagTable.holds_kept (execTpr_flags h)
  | trp => exact FlagTable.holds_kept (execTrp_flags h)
  | beqL | beqS | bfeL | bfeS | bftL | bftS | bgeL | bgeS | bgtL | bgtS | bleL | bleS | bltL | bltS | bmeL | bmeS
  | bmtL | bmtS | bneL | bneS | bnzL | bnzS | brcL | brcS | brnL | brnS | broL | broS | brpL | brpS | brzL | brzS =>
    exact FlagTable.holds_kept (branchIf_flags h)
  | braR | braL | braS => exact FlagTable.holds_kept (jumpTo_flags h)
  | jmpR | jmpA => exact FlagTable.holds_kept (jumpAbsolute_flags h)
  | jsrR | jsrA => exact FlagTable.holds_kept (callTo_flags h)
  | ret => exact FlagTable.holds_kept (execRet_flags h)
  | io => exact FlagTable.holds_kept (drivePins_flags h)
  | rti => exact FlagTable.holds_kept (execRti_flags h)

end Sys2Proof.Safety
end

section
/-! SUPPORT. What each shared operation does to memory (R31 of 20_memory.md), and the statements `WritesReadBack` (R33)
and `MemoryChangesOnlyWhereStored` (R31). -/

namespace Sys2Proof.Machine

/-- Settles O9: each clause is one law of memory, of a byte write or of a word write. -/
theorem writesReadBack : Obligations.WritesReadBack := by
  unfold Obligations.WritesReadBack
  intro m a v b hwf
  refine ⟨?byteSame, ?byteOther, ?wordLow, ?wordHigh, ?wordOther, ?wordRead⟩
  case byteSame => exact Memory.readByte_writeByte_same hwf a b
  case byteOther => exact fun c hc => Memory.readByte_writeByte_other m b hc
  case wordLow => exact Memory.readByte_writeWord_lo hwf a v
  case wordHigh => exact Memory.readByte_writeWord_hi hwf a v
  case wordOther => exact fun c hlo hhi => Memory.readByte_writeWord_other m v hlo hhi
  case wordRead => exact Memory.readWord_writeWord hwf a v

section
variable {w : Width} {p q : Reg} {len : Nat} {addr target : Word} {s t : State}

/-! ### The operations that store -/

/-- `s` stores its register at the address of its operand (R110). -/
theorem storeReg_mem (h : storeReg w addr q len s = .next t) : t.mem = s.mem.writeAt w addr (s.xr q w) := by
  cases h; rfl

/-- `psh` stores its operand below the top of the stack (R111, R117). -/
theorem push_mem {v : BitVec w.bits} (h : push w v len s = .next t) :
    t.mem = s.mem.writeAt w (s.sp - BitVec.ofNat 16 w.bytes) v := by
  cases h; rfl

/-- `jsr` stores the return address below the top of the PC Stack (R161). -/
theorem callTo_mem (h : callTo target len s = .next t) :
    t.mem = s.mem.writeAt .word (s.pcs - 2#16) (s.pcNext len) := by
  cases h; rfl

/-- `ent` stores the return address below the top of the PC Stack (R167, R188). -/
theorem enterProtected_mem (h : enterProtected len s = .next t) :
    t.mem = s.mem.writeAt .word (s.pcs - 2#16) (s.pcNext len) := by
  obtain ⟨-, rfl⟩ := enterProtected_next h
  rfl

/-- `lve` stores the return address below the top of the PC Stack (R168, R188). -/
theorem leaveProtected_mem (h : leaveProtected len s = .next t) :
    t.mem = s.mem.writeAt .word (s.pcs - 2#16) (s.pcNext len) := by
  cases h; rfl

/-! ### The operations that leave memory -/

/-- An arithmetic result goes to a register and the flags (R71, R72). -/
theorem writeResult_mem {r : BitVec w.bits} {f : Flags} (h : writeResult w p r f len s = .next t) : t.mem = s.mem := by
  cases h; rfl

/-- `div` leaves memory (R81). -/
theorem divInto_mem {b : BitVec w.bits} (h : divInto w p b len s = .next t) : t.mem = s.mem := by
  obtain ⟨-, rfl⟩ := divInto_next h
  rfl

/-- `dvs` leaves memory (R82). -/
theorem dvsInto_mem {b : BitVec w.bits} (h : dvsInto w p b len s = .next t) : t.mem = s.mem := by
  obtain ⟨-, rfl⟩ := dvsInto_next h
  rfl

/-- The bitwise instructions leave memory (R99). -/
theorem writeLogic_mem {r : BitVec w.bits} (h : writeLogic w p r len s = .next t) : t.mem = s.mem := by
  cases h; rfl

/-- `shl` and `shr` leave memory (R94, R95). -/
theorem writeShift_mem {r : BitVec w.bits} {carry : Bool} (h : writeShift w p r carry len s = .next t) :
    t.mem = s.mem := by
  cases h; rfl

/-- `rol`, `ror` and `swp` leave memory (R96 to R98). -/
theorem writeQuietly_mem {r : BitVec w.bits} (h : writeQuietly w p r len s = .next t) : t.mem = s.mem := by
  cases h; rfl

/-- `neg` leaves memory (R83). -/
theorem negate_mem (h : negate w p len s = .next t) : t.mem = s.mem := by
  cases h; rfl

/-- `cpy` leaves memory (R105). -/
theorem copyReg_mem (h : copyReg w p q len s = .next t) : t.mem = s.mem := by
  cases h; rfl

/-- `clr` leaves memory (R106). -/
theorem clearReg_mem (h : clearReg w p len s = .next t) : t.mem = s.mem := by
  cases h; rfl

/-- `stq` leaves memory (R107). -/
theorem setQuick_mem {n : Nibble} (h : setQuick w p n len s = .next t) : t.mem = s.mem := by
  cases h; rfl

/-- `exc` leaves memory (R108). -/
theorem exchange_mem (h : exchange w p q len s = .next t) : t.mem = s.mem := by
  cases h; rfl

/-- `l` reads memory and leaves it (R109). -/
theorem loadReg_mem (h : loadReg w p addr len s = .next t) : t.mem = s.mem := by
  cases h; rfl

/-- `pop` reads memory and leaves it (R112). -/
theorem popInto_mem (h : popInto w p len s = .next t) : t.mem = s.mem := by
  cases h; rfl

/-- `tsr` leaves memory (R113). -/
theorem execTsr_mem (h : execTsr p s = .next t) : t.mem = s.mem := by
  cases h; rfl

/-- `trs` leaves memory (R114). -/
theorem execTrs_mem (h : execTrs p s = .next t) : t.mem = s.mem := by
  cases h; rfl

/-- `tpr` leaves memory (R115). -/
theorem execTpr_mem (h : execTpr p s = .next t) : t.mem = s.mem := by
  cases h; rfl

/-- `trp` leaves memory (R116). -/
theorem execTrp_mem (h : execTrp p s = .next t) : t.mem = s.mem := by
  cases h; rfl

/-- `cmp` leaves memory (R125). -/
theorem compareWith_mem {b : BitVec w.bits} (h : compareWith w p b len s = .next t) : t.mem = s.mem := by
  cases h; rfl

/-- `dcp` leaves memory (R126). -/
theorem decreaseCompare_mem {operand : State → BitVec w.bits} (h : decreaseCompare w p operand len s = .next t) :
    t.mem = s.mem := by
  cases h; rfl

/-- `zcp` leaves memory (R127). -/
theorem zeroCompare_mem (h : zeroCompare w p len s = .next t) : t.mem = s.mem := by
  cases h; rfl

/-- A conditional branch leaves memory, taken or not (R132, R133). -/
theorem branchIf_mem {table : List CondRow} (h : branchIf table target len s = .next t) : t.mem = s.mem := by
  rw [branchIf_eq] at h
  cases h; rfl

/-- `bra` leaves memory (R145). -/
theorem jumpTo_mem (h : jumpTo target s = .next t) : t.mem = s.mem := by
  cases h; rfl

/-- `jmp` leaves memory (R160). -/
theorem jumpAbsolute_mem (h : jumpAbsolute target s = .next t) : t.mem = s.mem := by
  cases h; rfl

/-- A return reads memory and leaves it (R162, R170). -/
@[simp] theorem State.popPc_mem (s : State) : s.popPc.mem = s.mem := rfl

/-- `ret` leaves memory (R162). -/
theorem execRet_mem (h : execRet s = .next t) : t.mem = s.mem := by
  cases h; exact s.popPc_mem

/-- `rti` leaves memory (R170). -/
theorem execRti_mem (h : execRti s = .next t) : t.mem = s.mem := by
  cases h; rw [State.returnFromInterrupt_eq, State.popPc_mem]

/-- `io` leaves memory (R169). -/
theorem drivePins_mem {n : Nibble} (h : drivePins n len s = .next t) : t.mem = s.mem := by
  obtain ⟨-, -, rfl⟩ := drivePins_next h
  rfl

end

end Sys2Proof.Machine

namespace Sys2Proof.Safety

open Sys2Proof.Machine

/-! ### One typed store, or none -/

/-- How memory may go from `m` to `m'` in an instruction that stores where `dest` says (as `storesTo` gives it): by one
typed write there, or not at all. -/
def StoreEffect (dest : Option (Width × Word)) (m m' : Memory) : Prop :=
  match dest with
  | none => m' = m
  | some (w, addr) => ∃ v : BitVec w.bits, m' = m.writeAt w addr v

section
variable {m m' : Memory}

/-- How an instruction that stores nothing meets its effect. -/
theorem StoreEffect.of_eq (h : m' = m) : StoreEffect none m m' := h

/-- How a storing instruction meets its effect: the value it wrote is the witness. -/
theorem StoreEffect.of_writeAt {w : Width} {addr : Word} {v : BitVec w.bits} (h : m' = m.writeAt w addr v) :
    StoreEffect (some (w, addr)) m m' := ⟨v, h⟩

end

/-- No store keeps every byte. -/
theorem StoreEffect.memoryKept {s t : State} (h : StoreEffect none s.mem t.mem) : MemoryKept s t :=
  fun a => congrArg (Memory.readByte · a) h

/-- One typed store keeps every byte outside those it writes (R33). -/
theorem StoreEffect.memoryKeptBut {w : Width} {addr : Word} {s t : State}
    (h : StoreEffect (some (w, addr)) s.mem t.mem) : MemoryKeptBut w addr s t := by
  obtain ⟨v, hmem⟩ := h
  intro a ha
  have hlo : a ≠ addr := fun e => ha (.inl e)
  have hhi : w = .word → a ≠ addr + 1#16 := fun hw e => ha (.inr ⟨hw, e⟩)
  rw [hmem]
  exact Memory.readByte_writeAt_other s.mem w v hlo hhi

/-- Every instruction makes the one store that R31 gives it, at the address computed from the state before, or none. -/
theorem exec_storeEffect {i : Instr} {s t : State} (h : exec i s = .next t) :
    StoreEffect (storesTo i s) s.mem t.mem := by
  cases i with
  -- the storing instructions: s, psh, jsr, ent, lve
  | sWR | sWA | sBR | sBA => exact .of_writeAt (storeReg_mem h)
  | pshWR | pshBR | pshWI | pshBI => exact .of_writeAt (push_mem h)
  | jsrR | jsrA => exact .of_writeAt (callTo_mem h)
  | ent => exact .of_writeAt (enterProtected_mem h)
  | lve => exact .of_writeAt (leaveProtected_mem h)
  -- arithmetic
  | addWR | addBR | addWI | addBI | adqWU | adqBU | adqWS | adqBS | adsWR | adsBR | adsWI | adsBI
  | subWR | subBR | subWI | subBI | sbqWU | sbqBU | sbqWS | sbqBS | sbsWR | sbsBR | sbsWI | sbsBI
  | mulWR | mulBR | mulWI | mulBI | mlsWR | mlsBR | mlsWI | mlsBI => exact .of_eq (writeResult_mem h)
  | divWR | divWI => exact .of_eq (divInto_mem (w := .word) h)
  | divBR | divBI => exact .of_eq (divInto_mem (w := .byte) h)
  | dvsWR | dvsWI => exact .of_eq (dvsInto_mem (w := .word) h)
  | dvsBR | dvsBI => exact .of_eq (dvsInto_mem (w := .byte) h)
  | negW | negB => exact .of_eq (negate_mem h)
  -- logic, shifts, rotates, swap
  | andWR | andBR | andWI | andBI | orWR | orBR | orWI | orBI | xorWR | xorBR | xorWI | xorBI | notW | notB =>
    exact .of_eq (writeLogic_mem h)
  | shlW | shlB | shrW | shrB => exact .of_eq (writeShift_mem h)
  | rolW | rolB | rorW | rorB | swpW | swpB => exact .of_eq (writeQuietly_mem h)
  -- data movement
  | cpyW | cpyB => exact .of_eq (copyReg_mem h)
  | clrW | clrB => exact .of_eq (clearReg_mem h)
  | stqW | stqB => exact .of_eq (setQuick_mem h)
  | excW | excB => exact .of_eq (exchange_mem h)
  | lWR | lWA | lBR | lBA => exact .of_eq (loadReg_mem h)
  | popW | popB => exact .of_eq (popInto_mem h)
  | tsr => exact .of_eq (execTsr_mem h)
  | trs => exact .of_eq (execTrs_mem h)
  | tpr => exact .of_eq (execTpr_mem h)
  | trp => exact .of_eq (execTrp_mem h)
  -- compare
  | cmpWR | cmpWQ | cmpBR | cmpBQ | cmpWI | cmpBI => exact .of_eq (compareWith_mem h)
  | dcpWI _ imm => exact .of_eq (decreaseCompare_mem (w := .word) (operand := fun _ => imm) h)
  | dcpBI _ b => exact .of_eq (decreaseCompare_mem (w := .byte) (operand := fun _ => b) h)
  | dcpWR _ q => exact .of_eq (decreaseCompare_mem (operand := (·.xr q .word)) h)
  | dcpBR _ q => exact .of_eq (decreaseCompare_mem (operand := (·.xr q .byte)) h)
  | zcpW | zcpB => exact .of_eq (zeroCompare_mem h)
  -- branches, jump, return
  | beqL | beqS | bfeL | bfeS | bftL | bftS | bgeL | bgeS | bgtL | bgtS | bleL | bleS | bltL | bltS | bmeL | bmeS
  | bmtL | bmtS | bneL | bneS | bnzL | bnzS | brcL | brcS | brnL | brnS | broL | broS | brpL | brpS | brzL | brzS =>
    exact .of_eq (branchIf_mem h)
  | braR | braL | braS => exact .of_eq (jumpTo_mem h)
  | jmpR | jmpA => exact .of_eq (jumpAbsolute_mem h)
  | ret => exact .of_eq (execRet_mem h)
  -- system
  | io => exact .of_eq (drivePins_mem h)
  | rti => exact .of_eq (execRti_mem h)

/-- Settles O56: the one typed write at the address of `storesTo`, or no write, keeps every byte outside it. -/
theorem memoryChangesOnlyWhereStored : Obligations.MemoryChangesOnlyWhereStored := by
  unfold Obligations.MemoryChangesOnlyWhereStored
  intro i s t h
  have heffect : StoreEffect (storesTo i s) s.mem t.mem := exec_storeEffect h
  cases hdest : storesTo i s with
  | none => rw [hdest] at heffect; exact heffect.memoryKept
  | some dest => rw [hdest] at heffect; exact heffect.memoryKeptBut

end Sys2Proof.Safety
end

section
/-! SUPPORT. What the opcode byte alone decides: whether a row is assigned (R50, R52), the length (R51) and which bits
are printed zero (R53); and the statement `OpcodeByteDecidesLength`. Each is a fact about the 148 rows of the table,
carried to an opcode by the lookup that finds its row. -/

namespace Sys2Proof

open Sys2Proof.Safety

/-! ### The rows -/

/-- The row found for an opcode is a row of the table (R50). -/
theorem mem_opcodeTable_of_opcodeRow {op : Nat} {row : OpcodeRow} (h : opcodeRow op = some row) :
    (op, row) ∈ opcodeTable := by
  obtain ⟨before, after, htable, -⟩ := List.lookup_eq_some_iff.mp h
  rw [htable]
  exact List.mem_append_right before List.mem_cons_self

/-- What holds of the rows of every family holds of the row found for an opcode. -/
theorem opcodeRow_property {P : Nat → OpcodeRow → Prop} (arith : ∀ e ∈ rowsArith, P e.1 e.2)
    (logic : ∀ e ∈ rowsLogic, P e.1 e.2) (dataMove : ∀ e ∈ rowsDataMove, P e.1 e.2)
    (compare : ∀ e ∈ rowsCompare, P e.1 e.2) (branch : ∀ e ∈ rowsBranch, P e.1 e.2)
    (jump : ∀ e ∈ rowsJump, P e.1 e.2) (system : ∀ e ∈ rowsSystem, P e.1 e.2) {op : Nat} {row : OpcodeRow}
    (h : opcodeRow op = some row) : P op row := by
  have htable : ∀ e ∈ opcodeTable, P e.1 e.2 := by
    simp only [opcodeTable, List.forall_mem_append]
    exact ⟨⟨⟨⟨⟨⟨arith, logic⟩, dataMove⟩, compare⟩, branch⟩, jump⟩, system⟩
  exact htable (op, row) (mem_opcodeTable_of_opcodeRow h)

/-- R52's description of the 108 opcodes that no row lists, as a test of a number. -/
def noRowListed (op : Nat) : Bool :=
  decide (op = 0x81 ∨ op = 0x86 ∨ op = 0xC1 ∨ op = 0xC6 ∨ 0x26 ≤ op % 64)

/-- A byte is unassigned where the test of its number says so. -/
theorem unassigned_iff_noRowListed (op : Byte) : Unassigned op ↔ noRowListed op.toNat = true := by
  rw [noRowListed, decide_eq_true_iff, Unassigned]

/-- A byte has no row exactly where R52 says so: the four columns of 64 opcodes each, looked up. -/
theorem isNone_opcodeRow {op : Nat} (h : op < 256) : (opcodeRow op).isNone = noRowListed op := by
  have hcolumns : ∀ column < 4, ∀ k < 64,
      (opcodeRow (64 * column + k)).isNone = noRowListed (64 * column + k) := by decide
  have hop : 64 * (op / 64) + op % 64 = op := Nat.div_add_mod op 64
  have hbyte := hcolumns (op / 64) (by omega) (op % 64) (by omega)
  rwa [hop] at hbyte

/-- A byte is unassigned exactly where it has no row (R50, R52). -/
theorem unassigned_iff (op : Byte) : Unassigned op ↔ opcodeRow op.toNat = none := by
  rw [unassigned_iff_noRowListed, ← isNone_opcodeRow op.isLt, Option.isNone_iff_eq_none]

/-- There are 108 bytes without a row (R52). -/
theorem length_bytes_without_row : ((List.range 256).filter fun op => (opcodeRow op).isNone).length = 108 := by
  rw [List.filter_congr fun op hop => isNone_opcodeRow (List.mem_range.mp hop)]
  rfl

/-- An assigned opcode has a row (R50, R52). -/
theorem opcodeRow_of_not_unassigned {op : Byte} (h : ¬ Unassigned op) : ∃ row, opcodeRow op.toNat = some row :=
  Option.ne_none_iff_exists'.mp fun hnone => h ((unassigned_iff op).mpr hnone)

/-! ### The length (R51) -/

/-- The format of a row has 4 bytes where R51 lists its opcode, and 2 elsewhere. -/
theorem formatLength_of_opcodeRow {op : Nat} {row : OpcodeRow} (h : opcodeRow op = some row) :
    formatLength row = if op ∈ fourByteOpcodes then 4 else 2 := by
  refine opcodeRow_property (P := fun op row => formatLength row = if op ∈ fourByteOpcodes then 4 else 2)
    ?_ ?_ ?_ ?_ ?_ ?_ ?_ h <;> decide

/-- The opcodes that R51 lists are assigned. -/
theorem noRowListed_of_fourByte {op : Nat} (h : op ∈ fourByteOpcodes) : noRowListed op = false := by
  have hlisted : ∀ n ∈ fourByteOpcodes, noRowListed n = false := by decide
  exact hlisted op h

/-- The length of every byte: 4 where R51 lists it, none where R52 does, 2 elsewhere. -/
theorem opcodeLength_eq {op : Nat} (h : op < 256) :
    opcodeLength op = if op ∈ fourByteOpcodes then some 4 else if noRowListed op then none else some 2 := by
  have hrowless : (opcodeRow op).isNone = noRowListed op := isNone_opcodeRow h
  cases hrow : opcodeRow op with
  | none =>
    have hno : noRowListed op = true := by rw [← hrowless, hrow]; rfl
    have h4 : op ∉ fourByteOpcodes := fun h4 => by simp [noRowListed_of_fourByte h4] at hno
    simp [opcodeLength, hrow, h4, hno]
  | some row =>
    have hno : noRowListed op = false := by rw [← hrowless, hrow]; rfl
    simp [opcodeLength, hrow, hno, formatLength_of_opcodeRow hrow, apply_ite some]

/-- The bytes of length 4 are those that R51 lists. -/
theorem opcodeLength_eq_four_iff {op : Nat} (h : op < 256) : opcodeLength op = some 4 ↔ op ∈ fourByteOpcodes := by
  rw [opcodeLength_eq h]
  split_ifs with h4 hno <;> simp [h4]

/-- The bytes of length 2 are the other assigned ones (R51). -/
theorem opcodeLength_eq_two_iff {op : Nat} (h : op < 256) :
    opcodeLength op = some 2 ↔ noRowListed op = false ∧ op ∉ fourByteOpcodes := by
  rw [opcodeLength_eq h]
  split_ifs with h4 hno
  · simp [h4]
  · simp [hno]
  · simp [h4, hno]

/-- There are 98 bytes of length 2 (R51). -/
theorem length_bytes_of_length_two : ((List.range 256).filter fun op => opcodeLength op == some 2).length = 98 := by
  have htest : ∀ op ∈ List.range 256,
      (opcodeLength op == some 2) = (!noRowListed op && decide (op ∉ fourByteOpcodes)) := fun op hop => by
    rw [Bool.eq_iff_iff, beq_iff_eq, opcodeLength_eq_two_iff (List.mem_range.mp hop)]
    simp
  rw [List.filter_congr htest]
  rfl

/-- Settles O3: the lengths of a byte are read off R51's and R52's lists, and a byte without a row is rejected at
once. -/
theorem opcodeByteDecidesLength : Obligations.OpcodeByteDecidesLength := by
  unfold Obligations.OpcodeByteDecidesLength
  refine ⟨fun op => ?four, fun op => ?two, fun op bytes hun => ⟨?noLength, ?rejected⟩, ?listed, ?distinct, ?count⟩
  case four => exact opcodeLength_eq_four_iff op.isLt
  case two => rw [opcodeLength_eq_two_iff op.isLt, unassigned_iff_noRowListed, Bool.not_eq_true]
  case noLength => rw [opcodeLength, (unassigned_iff op).mp hun]; rfl
  case rejected => exact decode_unassigned ((unassigned_iff op).mp hun)
  case listed => rfl
  case distinct => decide
  case count => exact length_bytes_of_length_two

/-! ### The printed-zero bits (R53) -/

/-- The parts of an instruction that its format may print as zero: bits 3:0, bits 7:4 and all of the operand byte, and
byte 3 (R47). -/
structure ZeroFields where
  low : Bool
  high : Bool
  operand : Bool
  last : Bool

/-- What a format prints as zero (R47). -/
def OpcodeRow.zeroFields : OpcodeRow → ZeroFields
  | .rr _ | .rn _ | .b _ => ⟨false, false, false, false⟩
  | .r _ | .n _ | .rw _ => ⟨true, false, false, false⟩
  | .rb _ => ⟨true, false, false, true⟩
  | .z _ | .w _ => ⟨false, false, true, false⟩
  | .qw _ => ⟨false, true, false, false⟩

/-- R53's lists are the formats of the opcode table. -/
theorem printed_zero_lists_iff {op : Nat} {row : OpcodeRow} (h : opcodeRow op = some row) :
    (op ∈ lowNibbleZero ↔ row.zeroFields.low = true) ∧ (op ∈ highNibbleZero ↔ row.zeroFields.high = true) ∧
      (op ∈ operandByteZero ↔ row.zeroFields.operand = true) ∧ (op ∈ lastByteZero ↔ row.zeroFields.last = true) := by
  refine opcodeRow_property (P := fun op row =>
    (op ∈ lowNibbleZero ↔ row.zeroFields.low = true) ∧ (op ∈ highNibbleZero ↔ row.zeroFields.high = true) ∧
      (op ∈ operandByteZero ↔ row.zeroFields.operand = true) ∧ (op ∈ lastByteZero ↔ row.zeroFields.last = true))
    ?_ ?_ ?_ ?_ ?_ ?_ ?_ h <;> decide

/-- The check that `readOperands` makes of the operand byte `b1` and of byte 3 (R53). -/
def OpcodeRow.zerosClear (row : OpcodeRow) (b1 b3 : Byte) : Bool :=
  match row with
  | .rr _ | .rn _ | .b _ => true
  | .r _ | .n _ | .rw _ => loNibble b1 == 0#4
  | .rb _ => loNibble b1 == 0#4 && b3 == 0#8
  | .z _ | .w _ => b1 == 0#8
  | .qw _ => hiNibble b1 == 0#4

/-- A printed-zero bit is 1 exactly where the check of the opcode's row fails (R53). -/
theorem printedZeroSet_iff {op : Byte} {row : OpcodeRow} (h : opcodeRow op.toNat = some row) (b1 b3 : Byte) :
    PrintedZeroSet op b1 b3 ↔ row.zerosClear b1 b3 = false := by
  obtain ⟨hlow, hhigh, hoperand, hlast⟩ := printed_zero_lists_iff h
  rw [PrintedZeroSet, hlow, hhigh, hoperand, hlast]
  cases row <;> simp [OpcodeRow.zeroFields, OpcodeRow.zerosClear, loNibble, hiNibble, imp_iff_not_or]

/-- Only an assigned opcode has printed-zero bits (R52, R53). -/
theorem not_unassigned_of_printedZeroSet {op b1 b3 : Byte} (h : PrintedZeroSet op b1 b3) : ¬ Unassigned op := by
  rw [unassigned_iff_noRowListed, Bool.not_eq_true]
  have hlow : ∀ n ∈ lowNibbleZero, noRowListed n = false := by decide
  have hhigh : ∀ n ∈ highNibbleZero, noRowListed n = false := by decide
  have hoperand : ∀ n ∈ operandByteZero, noRowListed n = false := by decide
  have hlast : ∀ n ∈ lastByteZero, noRowListed n = false := by decide
  obtain ⟨hop, _⟩ | ⟨hop, _⟩ | ⟨hop, _⟩ | ⟨hop, _⟩ := h
  · exact hlow _ hop
  · exact hhigh _ hop
  · exact hoperand _ hop
  · exact hlast _ hop

end Sys2Proof
end

section
/-! SUPPORT. The fetch and the step at an unassigned and at an assigned opcode (R23), and the statements
`UnassignedOpcodesFault` (R52) and `PrintedZeroBitsFault` (R53). -/

namespace Sys2Proof.Machine

open Sys2Proof.Safety

/-- A fetch that rejects its bytes makes the step raise `IllegalInstruction` (R23, R52, R53). -/
theorem step_of_fetch_error {s : State} {e : DecodeError} (h : s.fetch = .error e) :
    step s = .fault (.illegalInstruction s.pc) := by
  rw [step, h]; rfl

/-- The fetch at an opcode without a row rejects the byte (R52). -/
theorem fetch_of_no_row {s : State} (h : opcodeRow (s.mem.readByte s.pc).toNat = none) :
    s.fetch = .error (.unassignedOpcode (s.mem.readByte s.pc)) := by
  have hbytes : s.fetchBytes = [s.mem.readByte s.pc] := by simp [State.fetchBytes, opcodeLength, h]
  rw [State.fetch, hbytes, decode_unassigned h]

/-- The fetch at an assigned opcode reads as many bytes as its format has (R23, R51). -/
theorem fetchBytes_of_opcodeRow {s : State} {row : OpcodeRow}
    (h : opcodeRow (s.mem.readByte s.pc).toNat = some row) :
    s.fetchBytes = s.mem.readBytes s.pc (formatLength row) := by
  simp [State.fetchBytes, opcodeLength, h]

/-- The bytes of an assigned opcode at `a`, as many as its format has, make an instruction where the row's check of the
printed-zero bits holds (R45, R53). -/
theorem decode_readBytes_of_opcodeRow {m : Memory} {a : Word} {row : OpcodeRow}
    (h : opcodeRow (m.readByte a).toNat = some row) :
    ∃ i, decode (m.readBytes a (formatLength row)) =
      zeroChecked (m.readByte a) (row.zerosClear (m.readByte (a + 1#16)) (m.readByte (a + 3#16))) i [] := by
  have h3 : a + 3#16 = a + 1#16 + 1#16 + 1#16 := by rw [BitVec.add_assoc, BitVec.add_assoc]; rfl
  rw [h3]
  cases row <;> exact ⟨_, decode_cons h⟩

/-- The fetch at an assigned opcode answers an instruction where every printed-zero bit is 0, and rejects the bytes where
one is 1 (R53). -/
theorem fetch_of_opcodeRow {s : State} {row : OpcodeRow} (h : opcodeRow (s.mem.readByte s.pc).toNat = some row) :
    ∃ i, s.fetch =
      if row.zerosClear (s.mem.readByte (s.pc + 1#16)) (s.mem.readByte (s.pc + 3#16)) then .ok i
      else .error (.printedZeroSet (s.mem.readByte s.pc)) := by
  obtain ⟨i, hi⟩ := decode_readBytes_of_opcodeRow h
  refine ⟨i, ?_⟩
  rw [State.fetch, fetchBytes_of_opcodeRow h, hi, zeroChecked]
  cases row.zerosClear (s.mem.readByte (s.pc + 1#16)) (s.mem.readByte (s.pc + 3#16)) <;> rfl

/-- Settles O4: an unassigned opcode has no row, so its fetch rejects it and the step faults; the count is over the 256
bytes. -/
theorem unassignedOpcodesFault : Obligations.UnassignedOpcodesFault := by
  unfold Obligations.UnassignedOpcodesFault
  refine ⟨fun s hun => ?fault, unassigned_iff, ?count⟩
  case fault => exact step_of_fetch_error (fetch_of_no_row ((unassigned_iff _).mp hun))
  case count => exact length_bytes_without_row

/-- Settles O5: the opcode has a row, and the row's check of the printed-zero bits alone decides the fetch. -/
theorem printedZeroBitsFault : Obligations.PrintedZeroBitsFault := by
  unfold Obligations.PrintedZeroBitsFault
  intro s
  refine ⟨fun hset => ?fault, fun hassigned hclear => ?fetched⟩
  case fault =>
    obtain ⟨row, hrow⟩ := opcodeRow_of_not_unassigned (not_unassigned_of_printedZeroSet hset)
    obtain ⟨i, hfetch⟩ := fetch_of_opcodeRow hrow
    rw [(printedZeroSet_iff hrow _ _).mp hset] at hfetch
    exact step_of_fetch_error hfetch
  case fetched =>
    obtain ⟨row, hrow⟩ := opcodeRow_of_not_unassigned hassigned
    obtain ⟨i, hfetch⟩ := fetch_of_opcodeRow hrow
    rw [printedZeroSet_iff hrow, Bool.not_eq_false] at hclear
    exact ⟨i, by rw [hfetch, if_pos hclear]⟩

end Sys2Proof.Machine
end

section
/-! SUPPORT. An instruction that moves `pc` alone, and the statement `BraAlwaysJumps` (R145). -/

namespace Sys2Proof.Safety

open Sys2Proof.Machine

/-- Setting `pc` changes nothing else. -/
theorem controlOnly_setPc (target : Word) (s : State) : ControlOnly target s (s.setPc target) where
  pc := s.setPc_pc target
  regs := s.setPc_x target
  flags := s.setPc_flags target
  special := ⟨rfl, rfl, rfl, rfl, rfl⟩
  memory := fun _ => rfl

/-- An instruction that answers with `pc` set completes and changes `pc` alone. -/
theorem completes_of_exec_setPc {i : Instr} {target : Word} {s : State} (h : exec i s = .next (s.setPc target)) :
    Completes i s (ControlOnly target s) := ⟨_, h, controlOnly_setPc target s⟩

/-- `bra` with the register form jumps to its own address plus `r0` (R61, R145). -/
theorem exec_braR (s : State) : exec .braR s = .next (s.setPc (s.pc + s.x 0)) := rfl

/-- `bra` with a 16-bit offset jumps to its own address plus the offset (R49, R145). -/
theorem exec_braL (imm : Word) (s : State) : exec (.braL imm) s = .next (s.setPc (s.pc + imm)) := rfl

/-- `bra` with an 8-bit offset jumps to its own address plus the offset sign-extended (R49, R145). -/
theorem exec_braS (b : Byte) (s : State) : exec (.braS b) s = .next (s.setPc (s.pc + b.signExtend 16)) := rfl

/-- Settles O43: each form sets `pc` alone; with 8-bit offset 0 the `pc` it sets is the one it has. -/
theorem braAlwaysJumps : Obligations.BraAlwaysJumps := by
  unfold Obligations.BraAlwaysJumps
  intro s imm b
  refine ⟨completes_of_exec_setPc (exec_braR s), completes_of_exec_setPc (exec_braL imm s),
    completes_of_exec_setPc (exec_braS b s), ?zeroOffset⟩
  have htarget : s.pc + (0#8 : Byte).signExtend 16 = s.pc := by simp
  rw [exec_braS, htarget]
  rfl

end Sys2Proof.Safety
end

section
/-! SUPPORT. What the flags of a sum and of a difference say (R71, R72), at every width, and the statements
`AddFlagsAreCarryAndSignedOverflow` and `SubFlagsAreBorrowAndSignedOverflow`. The two descriptions of V meet in the
library's signed-overflow test: it is defined by the exact integer, and a library lemma computes it from top bits. -/

namespace Sys2Proof.Machine

open Sys2Proof.Safety

/-! ### The fields of `flagsOf` -/

section
variable {w : Nat} (r : BitVec w) (v c : Bool)

@[simp] theorem flagsOf_n : (flagsOf r v c).n = r.msb := rfl
@[simp] theorem flagsOf_v : (flagsOf r v c).v = v := rfl
@[simp] theorem flagsOf_z : (flagsOf r v c).z = decide (r = 0#w) := rfl
@[simp] theorem flagsOf_c : (flagsOf r v c).c = c := rfl

/-- The shape of every table that writes all four flags follows R17 in N and Z. -/
theorem nz_flagsOf : NZ r (flagsOf r v c) where
  n := flagsOf_n r v c
  z := by rw [flagsOf_z, decide_eq_true_iff]

end

/-! ### The signed range -/

/-- An integer is out of the signed range exactly where it passes one of the two ends (R4). -/
theorem not_fitsSigned_iff (w : Nat) (x : Int) : ¬ FitsSigned w x ↔ 2 ^ (w - 1) ≤ x ∨ x < -(2 ^ (w - 1)) := by
  rw [FitsSigned]
  omega

section
variable {w : Nat} (a b : BitVec w)

/-- The library's overflow test of a signed sum is R71's range. -/
theorem saddOverflow_iff_not_fitsSigned : a.saddOverflow b = true ↔ ¬ FitsSigned w (a.toInt + b.toInt) := by
  rw [not_fitsSigned_iff, BitVec.saddOverflow, Bool.or_eq_true, decide_eq_true_iff, decide_eq_true_iff]

/-- The library's overflow test of a signed difference is R72's range. -/
theorem ssubOverflow_iff_not_fitsSigned : a.ssubOverflow b = true ↔ ¬ FitsSigned w (a.toInt - b.toInt) := by
  rw [not_fitsSigned_iff, BitVec.ssubOverflow, Bool.or_eq_true, decide_eq_true_iff, decide_eq_true_iff]

/-! ### `AddFlags` (R71) -/

/-- V of a sum, from the top bits: the operands have one sign and the sum the other. -/
theorem addFlags_v_iff_signs : (addFlags a b).v = true ↔ a.msb = b.msb ∧ (a + b).msb ≠ a.msb := by
  simp [addFlags]

/-- V of a sum is the library's overflow test. -/
theorem addFlags_v : (addFlags a b).v = a.saddOverflow b := by
  rw [BitVec.saddOverflow_eq]
  rfl

/-- `AddFlags` sets all four flags as R71 says. -/
theorem addFlagRule_addFlags : AddFlagRule a b (addFlags a b) where
  nz := nz_flagsOf (a + b) _ _
  c := decide_eq_true_iff
  v := by rw [addFlags_v, saddOverflow_iff_not_fitsSigned]

/-! ### `SubFlags` (R72) -/

/-- V of a difference, from the top bits: the operands differ in sign and the difference's sign is not `a`'s. -/
theorem subFlags_v_iff_signs : (subFlags a b).v = true ↔ a.msb ≠ b.msb ∧ (a - b).msb ≠ a.msb := by
  simp [subFlags]

/-- V of a difference is the library's overflow test, which lists the two cases of `a`'s sign. -/
theorem subFlags_v : (subFlags a b).v = a.ssubOverflow b := by
  rw [BitVec.ssubOverflow_eq, subFlags, flagsOf_v]
  cases a.msb with
  | false => simp
  | true => simp

/-- `SubFlags` sets all four flags as R72 says. -/
theorem subFlagRule_subFlags : SubFlagRule a b (subFlags a b) where
  nz := nz_flagsOf (a - b) _ _
  c := decide_eq_true_iff
  v := by rw [subFlags_v, ssubOverflow_iff_not_fitsSigned]

end

/-! ### The statements -/

/-- Settles O14: R71's rule holds at every width, and V's other description is the one the model computes. -/
theorem addFlagsAreCarryAndSignedOverflow : Obligations.AddFlagsAreCarryAndSignedOverflow := by
  unfold Obligations.AddFlagsAreCarryAndSignedOverflow
  intro w a b
  obtain ⟨⟨hn, hz⟩, hc, hrange⟩ := addFlagRule_addFlags a b
  exact ⟨hn, hz, hc, addFlags_v_iff_signs a b, hrange⟩

/-- Settles O15: R72's rule holds at every width, and V's other description is the one the model computes. -/
theorem subFlagsAreBorrowAndSignedOverflow : Obligations.SubFlagsAreBorrowAndSignedOverflow := by
  unfold Obligations.SubFlagsAreBorrowAndSignedOverflow
  intro w a b
  obtain ⟨⟨hn, hz⟩, hc, hrange⟩ := subFlagRule_subFlags a b
  exact ⟨hn, hz, hc, subFlags_v_iff_signs a b, hrange⟩

end Sys2Proof.Machine
end

section
/-! SUPPORT. What the flags of a comparison say of the order of its operands (R128 of 43_compare.md), at every width, and
the statement `FlagsAfterComparisonAreOrder`. All ten rows follow from `SubFlagRule`: Z, C and "N differs from V" give
equality, the unsigned order and the signed order, and the other rows are their negations and unions. -/

namespace Sys2Proof.Machine

/-- A typed read of another register does not see a typed write (R11, R12). -/
theorem State.xw_xr_other (s : State) {i j : Reg} (w : Width) (v : BitVec w.bits) (h : j ≠ i) :
    (s.xw i w v).xr j w = s.xr j w := by
  rw [State.xr, s.xw_x_other w v h, State.xr]

end Sys2Proof.Machine

namespace Sys2Proof.Safety

open Sys2Proof.Machine Sys2Proof.Claims

/-! ### The order of the operands, from `SubFlagRule` -/

section
variable {w : Nat} {a b : BitVec w}

/-- Where the exact difference fits, the top bit of the wrapped one says that it is negative. -/
theorem msb_sub_iff_of_fitsSigned (h : FitsSigned w (a.toInt - b.toInt)) :
    (a - b).msb = true ↔ a.toInt < b.toInt := by
  have hfits : ¬ a.ssubOverflow b = true := fun ho => (ssubOverflow_iff_not_fitsSigned a b).mp ho h
  rw [BitVec.msb_eq_toInt, BitVec.toInt_sub_of_not_ssubOverflow hfits, decide_eq_true_iff, sub_lt_zero]

/-- Where the exact difference does not fit, the top bit of the wrapped one says the opposite of its sign. -/
theorem msb_sub_iff_of_not_fitsSigned (h : ¬ FitsSigned w (a.toInt - b.toInt)) :
    (a - b).msb = true ↔ ¬ a.toInt < b.toInt := by
  rw [BitVec.msb_eq_toInt, BitVec.toInt_sub, decide_eq_true_iff]
  obtain hhigh | hlow := (not_fitsSigned_iff w _).mp h
  · obtain ⟨ha, hb, hwrapped⟩ := BitVec.twoPow_le_toInt_sub_toInt_iff.mp hhigh
    omega
  · obtain ⟨ha, hb, hwrapped⟩ := BitVec.toInt_sub_toInt_lt_twoPow_iff.mp hlow
    omega

variable {f : Flags}

/-- Z after a comparison is equality. -/
theorem SubFlagRule.eq_iff (h : SubFlagRule a b f) : a = b ↔ f.z = true := by
  rw [h.nz.z]
  exact sub_eq_zero.symm

/-- N differs from V after a comparison exactly where the operands are in signed order. -/
theorem SubFlagRule.toInt_lt_iff (h : SubFlagRule a b f) : a.toInt < b.toInt ↔ f.n ≠ f.v := by
  by_cases hfits : FitsSigned w (a.toInt - b.toInt)
  · have hv : f.v = false := by rw [← Bool.not_eq_true, h.v]; exact not_not_intro hfits
    rw [h.nz.n, hv, Bool.ne_false_iff, msb_sub_iff_of_fitsSigned hfits]
  · have hv : f.v = true := h.v.mpr hfits
    rw [h.nz.n, hv, Ne, msb_sub_iff_of_not_fitsSigned hfits, not_not]

/-- The flags of a comparison order its operands (R72, R128). -/
theorem SubFlagRule.orderFlags (h : SubFlagRule a b f) : OrderFlags a b f := by
  have heq : a = b ↔ f.z = true := h.eq_iff
  have hne : a ≠ b ↔ f.z = false := by rw [Ne, heq, Bool.not_eq_true]
  have hbelow : a.toNat < b.toNat ↔ f.c = true := h.c.symm
  have haboveEq : b.toNat ≤ a.toNat ↔ f.c = false := by rw [← not_lt, hbelow, Bool.not_eq_true]
  have hless : a.toInt < b.toInt ↔ f.n ≠ f.v := h.toInt_lt_iff
  have hgreaterEq : b.toInt ≤ a.toInt ↔ f.n = f.v := by rw [← not_lt, hless, not_not]
  exact {
    eq := heq
    ne := hne
    below := hbelow
    aboveEq := haboveEq
    above := by rw [lt_iff_le_and_ne', Ne, BitVec.toNat_inj, haboveEq, ← hne]
    belowEq := by rw [le_iff_lt_or_eq, BitVec.toNat_inj, hbelow, heq]
    less := hless
    greaterEq := hgreaterEq
    greater := by rw [lt_iff_le_and_ne', Ne, BitVec.toInt_inj, hgreaterEq, ← hne]
    lessEq := by rw [le_iff_lt_or_eq, BitVec.toInt_inj, hless, heq] }

end

/-! ### The operations that compare -/

section
variable {i : Instr} {w : Width} {p : Reg} {len : Nat} {s : State}

/-- An instruction that answers with the flags of `a - b` orders `a` and `b`. -/
theorem orderAfter_of_flags {a b : BitVec w.bits} {t : State} (h : exec i s = .next t) (hflags : t.flags = subFlags a b) :
    OrderAfter i w a b s := by
  have horder : OrderFlags a b t.flags := hflags ▸ (subFlagRule_subFlags a b).orderFlags
  exact ⟨t, h, horder⟩

/-- `cmp` orders `p` and its operand (R125). -/
theorem orderAfter_of_compareWith {b : BitVec w.bits} (h : exec i s = compareWith w p b len s) :
    OrderAfter i w (s.xr p w) b s := orderAfter_of_flags h rfl

/-- `sub`, `sbs` and `sbq` order the values before the subtraction (R76 to R78). -/
theorem orderAfter_of_subInto {b : BitVec w.bits} (h : exec i s = subInto w p b len s) :
    OrderAfter i w (s.xr p w) b s := orderAfter_of_flags h rfl

/-- `dcp` orders the decremented `p` and its operand, which is read after `p` is written (R126). -/
theorem orderAfter_of_decreaseCompare {operand : State → BitVec w.bits} {b : BitVec w.bits}
    (h : exec i s = decreaseCompare w p operand len s) (hb : operand (s.xw p w (s.xr p w - 1#w.bits)) = b) :
    OrderAfter i w (s.xr p w - 1#w.bits) b s := by
  subst hb
  exact orderAfter_of_flags h rfl

end

/-- Settles O16: each form is one of three shared operations, and each of these leaves the flags of a difference, which
order its operands. -/
theorem flagsAfterComparisonAreOrder : Obligations.FlagsAfterComparisonAreOrder := by
  unfold Obligations.FlagsAfterComparisonAreOrder
  intro s p q n imm b
  exact ⟨
    -- cmp.w: RR, immediate, quick
    orderAfter_of_compareWith rfl, orderAfter_of_compareWith rfl, orderAfter_of_compareWith rfl,
    -- sub.w, sbs.w: RR, immediate; sbq.w: unsigned, signed
    orderAfter_of_subInto rfl, orderAfter_of_subInto rfl,
    orderAfter_of_subInto rfl, orderAfter_of_subInto rfl,
    orderAfter_of_subInto rfl, orderAfter_of_subInto rfl,
    -- dcp.w: another register, the same register, immediate
    fun hqp => orderAfter_of_decreaseCompare (operand := (·.xr q .word)) rfl (s.xw_xr_other .word _ hqp),
    orderAfter_of_decreaseCompare (operand := (·.xr p .word)) rfl (s.xw_xr_same p .word _),
    orderAfter_of_decreaseCompare (w := .word) (operand := fun _ => imm) rfl rfl,
    -- cmp.b: RR, immediate, quick
    orderAfter_of_compareWith rfl, orderAfter_of_compareWith rfl, orderAfter_of_compareWith rfl,
    -- sub.b, sbs.b: RR, immediate; sbq.b: unsigned, signed
    orderAfter_of_subInto rfl, orderAfter_of_subInto rfl,
    orderAfter_of_subInto rfl, orderAfter_of_subInto rfl,
    orderAfter_of_subInto rfl, orderAfter_of_subInto rfl,
    -- dcp.b: another register, the same register, immediate
    fun hqp => orderAfter_of_decreaseCompare (operand := (·.xr q .byte)) rfl (s.xw_xr_other .byte _ hqp),
    orderAfter_of_decreaseCompare (operand := (·.xr p .byte)) rfl (s.xw_xr_same p .byte _),
    orderAfter_of_decreaseCompare (w := .byte) (operand := fun _ => b) rfl rfl⟩

end Sys2Proof.Safety
end

section
/-! SUPPORT. The conditional branches (44_branch.md): each "Branch if:" table as a Boolean function, and the statements
`ConditionalBranchesTestTheirFlags` (R153) and `BranchesAfterCompareOrder` (R151). The second rests on the first: a
branch tests a function of the flags, and after `cmp` the flags say how the operands compare (R128). -/

namespace Sys2Proof.Machine

/-! ### Reading a table (R133) -/

@[simp] theorem cellHolds_none (flag : Bool) : cellHolds none flag = true := rfl
@[simp] theorem cellHolds_some (b flag : Bool) : cellHolds (some b) flag = (flag == b) := rfl
@[simp] theorem rowHolds_mk (n v z c : Option Bool) (f : Flags) :
    rowHolds ⟨n, v, z, c⟩ f = (cellHolds n f.n && cellHolds v f.v && cellHolds z f.z && cellHolds c f.c) := rfl
@[simp] theorem condHolds_nil (f : Flags) : condHolds [] f = false := rfl
@[simp] theorem condHolds_cons (r : CondRow) (rs : List CondRow) (f : Flags) :
    condHolds (r :: rs) f = (rowHolds r f || condHolds rs f) := rfl

/-! ### The tables as Boolean functions (R153) -/

section
variable (f : Flags)

@[simp] theorem condHolds_condBeq : condHolds condBeq f = f.z := by simp [condBeq]
@[simp] theorem condHolds_condBft : condHolds condBft f = (f.z && f.c) := by simp [condBft]
@[simp] theorem condHolds_condBmt : condHolds condBmt f = (!f.z && !f.c) := by simp [condBmt]
@[simp] theorem condHolds_condBne : condHolds condBne f = !f.z := by simp [condBne]
@[simp] theorem condHolds_condBnz : condHolds condBnz f = !f.z := by simp [condBnz]
@[simp] theorem condHolds_condBrc : condHolds condBrc f = f.c := by simp [condBrc]
@[simp] theorem condHolds_condBrn : condHolds condBrn f = f.n := by simp [condBrn]
@[simp] theorem condHolds_condBro : condHolds condBro f = f.v := by simp [condBro]
@[simp] theorem condHolds_condBrp : condHolds condBrp f = !f.n := by simp [condBrp]
@[simp] theorem condHolds_condBrz : condHolds condBrz f = f.z := by simp [condBrz]

/-- The second row of `bfe` is contained in the first (C7). -/
@[simp] theorem condHolds_condBfe : condHolds condBfe f = f.z := by
  cases hz : f.z <;> simp [condBfe, hz]

/-- The rows of `bge` cover every state (C7): N, V, and neither. -/
@[simp] theorem condHolds_condBge : condHolds condBge f = true := by
  cases hn : f.n <;> simp [condBge, hn]

@[simp] theorem condHolds_condBgt : condHolds condBgt f = ((f.n == f.v) && !f.z) := by
  cases hn : f.n <;> simp [condBgt, hn]

@[simp] theorem condHolds_condBle : condHolds condBle f = (f.z || f.n != f.v) := by
  cases hn : f.n <;> simp [condBle, hn]

@[simp] theorem condHolds_condBlt : condHolds condBlt f = (f.n != f.v) := by
  cases hn : f.n <;> simp [condBlt, hn]

@[simp] theorem condHolds_condBme : condHolds condBme f = (f.z || !f.c) := by
  cases hz : f.z <;> simp [condBme, hz]

end

end Sys2Proof.Machine

namespace Sys2Proof.Safety

open Sys2Proof.Machine Sys2Proof.Claims

/-! ### Both forms of a branch -/

section
variable {i long short : Instr} {table : List CondRow} {cond : Flags → Bool} {target imm : Word} {b : Byte} {len : Nat}
  {s : State}

/-- A conditional branch completes at its target or at the next instruction, and changes `pc` alone (R132, R152). -/
theorem completes_of_branchIf (h : exec i s = branchIf table target len s) :
    Completes i s (ControlOnly (if condHolds table s.flags then target else s.pcNext len) s) :=
  completes_of_exec_setPc (h.trans (branchIf_eq table target len s))

/-- Two forms that test one table branch on the Boolean function that the table computes (R49, R132). -/
theorem branchesOn_of_branchIf (hlong : exec long s = branchIf table (s.relLong imm) 4 s)
    (hshort : exec short s = branchIf table (s.relShort b) 2 s) (hcond : ∀ f, condHolds table f = cond f) :
    BranchesOn long short cond imm b s := by
  unfold BranchesOn
  rw [← hcond]
  exact ⟨completes_of_branchIf hlong, completes_of_branchIf hshort⟩

/-- A branch is taken on every proposition that its flags decide. -/
theorem branchesWhen_of_branchesOn {taken : Prop} (h : BranchesOn long short cond imm b s)
    (htaken : taken ↔ cond s.flags = true) : BranchesWhen long short taken imm b s := by
  unfold BranchesOn at h
  refine ⟨fun hyes => ?_, fun hno => ?_⟩
  · simpa only [if_pos (htaken.mp hyes)] using h
  · simpa only [if_neg (mt htaken.mpr hno)] using h

end

/-- Settles O44: each pair of forms tests one table, and the table computes R153's function; the counts and the opcode
bytes are evaluated. -/
theorem conditionalBranchesTestTheirFlags : Obligations.ConditionalBranchesTestTheirFlags := by
  unfold Obligations.ConditionalBranchesTestTheirFlags
  refine ⟨fun s imm b => ?branches, ?counts, fun imm b => ?opcodes⟩
  case branches =>
    exact ⟨
      completes_of_exec_setPc (exec_braL imm s),
      completes_of_exec_setPc (exec_braS b s),
      completes_of_exec_setPc (exec_braR s),
      branchesOn_of_branchIf rfl rfl condHolds_condBeq,
      branchesOn_of_branchIf rfl rfl condHolds_condBfe,
      branchesOn_of_branchIf rfl rfl condHolds_condBft,
      branchesOn_of_branchIf rfl rfl condHolds_condBge,
      branchesOn_of_branchIf rfl rfl condHolds_condBgt,
      branchesOn_of_branchIf rfl rfl condHolds_condBle,
      branchesOn_of_branchIf rfl rfl condHolds_condBlt,
      branchesOn_of_branchIf rfl rfl condHolds_condBme,
      branchesOn_of_branchIf rfl rfl condHolds_condBmt,
      branchesOn_of_branchIf rfl rfl condHolds_condBne,
      branchesOn_of_branchIf rfl rfl condHolds_condBnz,
      branchesOn_of_branchIf rfl rfl condHolds_condBrc,
      branchesOn_of_branchIf rfl rfl condHolds_condBrn,
      branchesOn_of_branchIf rfl rfl condHolds_condBro,
      branchesOn_of_branchIf rfl rfl condHolds_condBrp,
      branchesOn_of_branchIf rfl rfl condHolds_condBrz⟩
  case counts => decide
  case opcodes => exact ⟨rfl, rfl, rfl⟩

/-! ### After a comparison (R128, R151) -/

/-- Where the flags order `x` and `y`, each branch is taken on its relation. `bft` asks for equal operands of which the
first is below, so it is never taken. -/
theorem branchesByOrder_of_orderFlags {w : Nat} {x y : BitVec w} {t : State} (h : OrderFlags x y t.flags) (far : Word)
    (near : Byte) : BranchesByOrder x y far near t := by
  obtain ⟨hbranches, -, -⟩ := conditionalBranchesTestTheirFlags
  obtain ⟨-, -, -, beq, bfe, bft, bge, bgt, ble, blt, bme, bmt, bne, bnz, brc, -, -, -, brz⟩ := hbranches t far near
  have hne : x ≠ y ↔ (!t.flags.z) = true := by rw [h.ne, Bool.not_eq_true']
  have hgreater : y.toInt < x.toInt ↔ ((t.flags.n == t.flags.v) && !t.flags.z) = true := by
    rw [h.greater, Bool.and_eq_true, beq_iff_eq, Bool.not_eq_true']
  have hless : x.toInt < y.toInt ↔ (t.flags.n != t.flags.v) = true := by rw [h.less, bne_iff_ne]
  have hlessEq : x.toInt ≤ y.toInt ↔ (t.flags.z || t.flags.n != t.flags.v) = true := by
    rw [h.lessEq, Bool.or_eq_true, bne_iff_ne, or_comm]
  have habove : y.toNat < x.toNat ↔ (!t.flags.z && !t.flags.c) = true := by
    rw [h.above, Bool.and_eq_true, Bool.not_eq_true', Bool.not_eq_true', and_comm]
  have haboveEq : y.toNat ≤ x.toNat ↔ (t.flags.z || !t.flags.c) = true := by
    rw [Bool.or_eq_true, Bool.not_eq_true', ← h.eq, ← h.aboveEq]
    exact (or_iff_right_of_imp fun heq => (congrArg BitVec.toNat heq).ge).symm
  have hnever : False ↔ (t.flags.z && t.flags.c) = true := by
    rw [Bool.and_eq_true, ← h.eq, ← h.below, false_iff]
    rintro ⟨rfl, hlt⟩
    exact lt_irrefl _ hlt
  exact ⟨
    branchesWhen_of_branchesOn beq h.eq,
    branchesWhen_of_branchesOn brz h.eq,
    branchesWhen_of_branchesOn bfe h.eq,
    branchesWhen_of_branchesOn bne hne,
    branchesWhen_of_branchesOn bnz hne,
    branchesWhen_of_branchesOn bgt hgreater,
    branchesWhen_of_branchesOn blt hless,
    branchesWhen_of_branchesOn ble hlessEq,
    branchesWhen_of_branchesOn bge (iff_of_true trivial rfl),
    branchesWhen_of_branchesOn bmt habove,
    branchesWhen_of_branchesOn bme haboveEq,
    branchesWhen_of_branchesOn brc h.below,
    branchesWhen_of_branchesOn bft hnever⟩

/-- What an instruction's flags say in every state that it answers, they say in the one it answers here. -/
theorem orderFlags_of_orderAfter {i : Instr} {w : Width} {a b : BitVec w.bits} {s t : State} (h : OrderAfter i w a b s)
    (hexec : exec i s = .next t) : OrderFlags a b t.flags := by
  obtain ⟨u, hu, horder⟩ := h
  cases hu.symm.trans hexec
  exact horder

/-- After `cmp` each branch is taken on the relation of `p` and the operand (R125, R151). -/
theorem branchesByOrder_of_compareWith {i : Instr} {w : Width} {p : Reg} {b : BitVec w.bits} {len : Nat} {s t : State}
    (h : exec i s = compareWith w p b len s) (far : Word) (near : Byte) (hexec : exec i s = .next t) :
    BranchesByOrder (s.xr p w) b far near t :=
  branchesByOrder_of_orderFlags (orderFlags_of_orderAfter (orderAfter_of_compareWith h) hexec) far near

/-- Settles O45: every form of `cmp` leaves flags that order its operands, and those flags decide each branch. -/
theorem branchesAfterCompareOrder : Obligations.BranchesAfterCompareOrder := by
  unfold Obligations.BranchesAfterCompareOrder
  intro s t p q n imm b far near
  exact ⟨
    -- cmp.w: RR, immediate, quick
    branchesByOrder_of_compareWith rfl far near, branchesByOrder_of_compareWith rfl far near,
    branchesByOrder_of_compareWith rfl far near,
    -- cmp.b: RR, immediate, quick
    branchesByOrder_of_compareWith rfl far near, branchesByOrder_of_compareWith rfl far near,
    branchesByOrder_of_compareWith rfl far near⟩

end Sys2Proof.Safety
end

section
/-! SUPPORT. The mode bit (R186, R187 of 60_exceptions.md): every instruction but `ent`, `lve` and `io` commutes with
setting it; from that one law, the statements `ModeMattersOnlyToEntAndIo` and `ModeChangesOnlyByEntAndLve`. -/

namespace Sys2Proof.Machine

open Sys2Proof.Safety

/-! ### What the operations do in the other mode -/

section
variable {w : Width} {p : Reg} {b : BitVec w.bits} {len : Nat} {target : Word} (s : State) (m : Bool)

/-- Setting the mode a state is in changes nothing. -/
@[simp] theorem State.setProt_self : s.setProt s.prot = s := rfl

/-- `div` tests its divisor, and faults, alike in both modes (R81). -/
theorem divInto_setProt : divInto w p b len (s.setProt m) = withMode m (divInto w p b len s) := by
  unfold divInto
  split <;> rfl

/-- `dvs` tests its divisor, and faults, alike in both modes (R82). -/
theorem dvsInto_setProt : dvsInto w p b len (s.setProt m) = withMode m (dvsInto w p b len s) := by
  unfold dvsInto
  split <;> rfl

/-- A branch is decided by the flags, which no mode changes (R133). -/
theorem branchIf_setProt {table : List CondRow} :
    branchIf table target len (s.setProt m) = withMode m (branchIf table target len s) := by
  rw [branchIf_eq, branchIf_eq]; rfl

/-- `lve` overwrites the mode bit without reading it (R168). -/
theorem leaveProtected_setProt : leaveProtected len (s.setProt m) = leaveProtected len s := rfl

end

/-- `lve` leaves Protected Mode (R168). -/
theorem leaveProtected_prot {len : Nat} {s t : State} (h : leaveProtected len s = .next t) : t.prot = false := by
  cases h; rfl

/-- `ent` enters Protected Mode (R167). -/
theorem enterProtected_prot {len : Nat} {s t : State} (h : enterProtected len s = .next t) : t.prot = true := by
  obtain ⟨-, rfl⟩ := enterProtected_next h
  simp [State.callInterrupt_eq]

/-- `io` keeps the mode (R169). -/
theorem drivePins_prot {n : Nibble} {len : Nat} {s t : State} (h : drivePins n len s = .next t) : t.prot = s.prot := by
  obtain ⟨-, -, rfl⟩ := drivePins_next h
  simp

/-! ### What each instruction does in the other mode (R186) -/

/-- Every instruction but `ent`, `lve` and `io` commutes with setting the mode: it neither reads nor writes it. -/
theorem exec_setProt {i : Instr} (s : State) (m : Bool) (hent : i ≠ .ent) (hlve : i ≠ .lve) (hio : ∀ n, i ≠ .io n) :
    exec i (s.setProt m) = withMode m (exec i s) := by
  cases i with
  -- the instructions that write the mode or read it
  | ent => exact absurd rfl hent
  | lve => exact absurd rfl hlve
  | io n => exact absurd rfl (hio n)
  -- the instructions that test something else
  | divWR | divWI => exact divInto_setProt (w := .word) s m
  | divBR | divBI => exact divInto_setProt (w := .byte) s m
  | dvsWR | dvsWI => exact dvsInto_setProt (w := .word) s m
  | dvsBR | dvsBI => exact dvsInto_setProt (w := .byte) s m
  | beqL | beqS | bfeL | bfeS | bftL | bftS | bgeL | bgeS | bgtL | bgtS | bleL | bleS | bltL | bltS | bmeL | bmeS
  | bmtL | bmtS | bneL | bneS | bnzL | bnzS | brcL | brcS | brnL | brnS | broL | broS | brpL | brpS | brzL | brzS =>
    exact branchIf_setProt s m
  -- every other instruction answers updates of the state outright, none of which reads or writes the mode
  | addWR | addBR | addWI | addBI | adqWU | adqBU | adqWS | adqBS | adsWR | adsBR | adsWI | adsBI
  | subWR | subBR | subWI | subBI | sbqWU | sbqBU | sbqWS | sbqBS | sbsWR | sbsBR | sbsWI | sbsBI
  | mulWR | mulBR | mulWI | mulBI | mlsWR | mlsBR | mlsWI | mlsBI | negW | negB
  | andWR | andBR | andWI | andBI | orWR | orBR | orWI | orBI | xorWR | xorBR | xorWI | xorBI | notW | notB
  | shlW | shlB | shrW | shrB | rolW | rolB | rorW | rorB | swpW | swpB
  | cpyW | cpyB | clrW | clrB | stqW | stqB | excW | excB | lWR | lWA | lBR | lBA | sWR | sWA | sBR | sBA
  | pshWR | pshBR | pshWI | pshBI | popW | popB | tsr | trs | tpr | trp
  | cmpWR | cmpWQ | cmpBR | cmpBQ | cmpWI | cmpBI | dcpWI | dcpBI | dcpWR | dcpBR | zcpW | zcpB
  | braR | braL | braS | jmpR | jmpA | jsrR | jsrA | ret | rti => rfl

/-- `ent` is denied in Protected Mode (R167, R186). -/
theorem exec_ent_of_prot {s : State} (h : s.prot = true) : exec .ent s = .fault (.protectionViolation s.pc) := if_pos h

/-- `io` is denied in Protected Mode, before its field is looked at (R169, R182, R186). -/
theorem exec_io_of_prot {s : State} (n : Nibble) (h : s.prot = true) :
    exec (.io n) s = .fault (.protectionViolation s.pc) := if_pos h

/-- Settles O60: `exec_setProt` for the instructions that neither read nor write the mode, and a lemma each for `lve`,
`ent` and `io`. -/
theorem modeMattersOnlyToEntAndIo : Obligations.ModeMattersOnlyToEntAndIo := by
  unfold Obligations.ModeMattersOnlyToEntAndIo
  intro i s m hent hio
  refine ⟨?lve, fun hlve => ?other, ?ent, fun n => ?io⟩
  case lve => rintro rfl; exact leaveProtected_setProt s m
  case other => exact exec_setProt s m hent hlve hio
  case ent => exact exec_ent_of_prot (s.setProt_prot true)
  case io => exact exec_io_of_prot n (s.setProt_prot true)

/-! ### How a step changes the mode (R187) -/

/-- Every instruction but `ent` and `lve` keeps the mode. For those but `io` it is `exec_setProt` at the mode the
state is in: the answer is the answer with that mode set. -/
theorem exec_keeps_prot {i : Instr} {s t : State} (h : exec i s = .next t) (hent : i ≠ .ent) (hlve : i ≠ .lve) :
    t.prot = s.prot := by
  by_cases hio : ∃ n, i = .io n
  · obtain ⟨n, rfl⟩ := hio
    exact drivePins_prot h
  · have hmode : exec i s = withMode s.prot (exec i s) :=
      exec_setProt s s.prot hent hlve fun n hn => hio ⟨n, hn⟩
    have ht : t = t.setProt s.prot := by
      rw [h] at hmode
      exact Host.Outcome.next.inj hmode
    rw [ht, State.setProt_prot]

/-- Settles O54: the instruction of the step is `ent`, `lve` or another one, and each says what it does to the mode. -/
theorem modeChangesOnlyByEntAndLve : Obligations.ModeChangesOnlyByEntAndLve := by
  unfold Obligations.ModeChangesOnlyByEntAndLve
  refine ⟨State.resetFrom_prot, fun s t hstep => ?step⟩
  case step =>
    obtain ⟨i, hfetch, hexec⟩ := step_next hstep
    rw [hfetch]
    obtain rfl | hent := eq_or_ne i .ent
    · obtain ⟨hprot, -⟩ := enterProtected_next hexec
      exact .inl ⟨rfl, hprot, enterProtected_prot hexec⟩
    obtain rfl | hlve := eq_or_ne i .lve
    · exact .inr (.inl ⟨rfl, leaveProtected_prot hexec⟩)
    · exact .inr (.inr ⟨fun h => hent (Except.ok.inj h), fun h => hlve (Except.ok.inj h),
        exec_keeps_prot hexec hent hlve⟩)

end Sys2Proof.Machine
end

section
/-! SUPPORT. The faults (R181, R182 of 60_exceptions.md): when the fetch rejects, when an instruction faults, and the
statements `ZeroDivisorFaults` and `FaultsAreExactlyTheTable`. -/

namespace Sys2Proof.Machine

open Sys2Proof.Safety

/-! ### The operations that may fault -/

section
variable {w : Width} {p : Reg} {b : BitVec w.bits} {len : Nat} {s : State}

/-- `div` by zero faults (R81). -/
theorem divInto_of_zero (h : b = 0#w.bits) : divInto w p b len s = .fault (.divideByZero s.pc) := if_pos h

/-- `dvs` by zero faults (R82). -/
theorem dvsInto_of_zero (h : b = 0#w.bits) : dvsInto w p b len s = .fault (.divideByZero s.pc) := if_pos h

/-- Nothing but a zero divisor keeps `div` from completing (R81). -/
theorem divInto_next_or_zero : (∃ t, divInto w p b len s = .next t) ∨ b = 0#w.bits :=
  (em (b = 0#w.bits)).symm.imp_left fun hb => ⟨_, if_neg hb⟩

/-- Nothing but a zero divisor keeps `dvs` from completing (R82). -/
theorem dvsInto_next_or_zero : (∃ t, dvsInto w p b len s = .next t) ∨ b = 0#w.bits :=
  (em (b = 0#w.bits)).symm.imp_left fun hb => ⟨_, if_neg hb⟩

/-- Nothing but Protected Mode keeps `ent` from completing (R167). -/
theorem enterProtected_next_or_prot : (∃ t, enterProtected len s = .next t) ∨ s.prot = true :=
  (em (s.prot = true)).symm.imp_left fun hp => ⟨_, if_neg hp⟩

end

/-- `io` with a field value above 3 is illegal outside Protected Mode (R56, R169). -/
theorem exec_io_of_field {s : State} {n : Nibble} (hp : s.prot = false) (hn : 3 < n.toNat) :
    exec (.io n) s = .fault (.illegalInstruction s.pc) := by
  have hmode : ¬ s.prot = true := by simp [hp]
  exact (if_neg hmode).trans (if_pos hn)

/-- Nothing but the mode and the field keeps `io` from completing (R169). -/
theorem drivePins_next_or_denied (n : Nibble) (len : Nat) (s : State) :
    (∃ t, drivePins n len s = .next t) ∨ s.prot = true ∨ (s.prot = false ∧ 3 < n.toNat) := by
  unfold drivePins
  by_cases hp : s.prot = true
  · exact .inr (.inl hp)
  by_cases hn : 3 < n.toNat
  · exact .inr (.inr ⟨Bool.eq_false_of_not_eq_true hp, hn⟩)
  · rw [if_neg hp, if_neg hn]
    exact .inl ⟨_, rfl⟩

/-! ### Division by zero -/

/-- An instruction whose divisor is zero at its width faults (R81, R82). -/
theorem exec_of_zeroDivisor {i : Instr} {s : State} (h : ZeroDivisor i s) :
    exec i s = .fault (.divideByZero s.pc) := by
  cases i with
  | divWR | divWI => exact divInto_of_zero (w := .word) h
  | divBR | divBI => exact divInto_of_zero (w := .byte) h
  | dvsWR | dvsWI => exact dvsInto_of_zero (w := .word) h
  | dvsBR | dvsBI => exact dvsInto_of_zero (w := .byte) h
  | _ => exact False.elim h

/-- Settles O23: each clause is `exec_of_zeroDivisor` at one form of `div` or `dvs`. -/
theorem zeroDivisorFaults : Obligations.ZeroDivisorFaults := by
  unfold Obligations.ZeroDivisorFaults
  intro s p q
  exact ⟨exec_of_zeroDivisor (i := .divWR p q), exec_of_zeroDivisor (i := .divWI p 0#16) rfl,
    exec_of_zeroDivisor (i := .divBR p q), exec_of_zeroDivisor (i := .divBI p 0#8) rfl,
    exec_of_zeroDivisor (i := .dvsWR p q), exec_of_zeroDivisor (i := .dvsWI p 0#16) rfl,
    exec_of_zeroDivisor (i := .dvsBR p q), exec_of_zeroDivisor (i := .dvsBI p 0#8) rfl⟩

/-! ### The faults of an instruction (R181) -/

/-- The row of the fault table (R181) for an instruction that was fetched: `FaultCause` without the rejected bytes, as
`faultCause_iff_of_fetch_ok` says. -/
def InstrFaultCause (i : Instr) (s : State) : Fault → Prop
  | .illegalInstruction pc => pc = s.pc ∧ ∃ n, i = .io n ∧ s.prot = false ∧ 3 < n.toNat
  | .protectionViolation pc => pc = s.pc ∧ s.prot = true ∧ (i = .ent ∨ ∃ n, i = .io n)
  | .divideByZero pc => pc = s.pc ∧ ZeroDivisor i s

/-- Where a cause holds the instruction raises that fault; the mode is checked before the field of `io` (R182). -/
theorem exec_of_instrFaultCause {i : Instr} {s : State} {f : Fault} (h : InstrFaultCause i s f) :
    exec i s = .fault f := by
  cases f with
  | illegalInstruction pc =>
    obtain ⟨rfl, n, rfl, hp, hn⟩ := h
    exact exec_io_of_field hp hn
  | protectionViolation pc =>
    obtain ⟨rfl, hp, rfl | ⟨n, rfl⟩⟩ := h
    · exact exec_ent_of_prot hp
    · exact exec_io_of_prot n hp
  | divideByZero pc =>
    obtain ⟨rfl, hzero⟩ := h
    exact exec_of_zeroDivisor hzero

/-- Every instruction completes or has a cause to fault; only `div`, `dvs`, `ent` and `io` may have one. -/
theorem exec_next_or_faultCause (i : Instr) (s : State) :
    (∃ t, exec i s = .next t) ∨ ∃ f, InstrFaultCause i s f := by
  cases i with
  -- the instructions that may fault
  | divWR | divWI =>
    exact (divInto_next_or_zero (w := .word)).imp_right fun hzero => ⟨.divideByZero s.pc, rfl, hzero⟩
  | divBR | divBI =>
    exact (divInto_next_or_zero (w := .byte)).imp_right fun hzero => ⟨.divideByZero s.pc, rfl, hzero⟩
  | dvsWR | dvsWI =>
    exact (dvsInto_next_or_zero (w := .word)).imp_right fun hzero => ⟨.divideByZero s.pc, rfl, hzero⟩
  | dvsBR | dvsBI =>
    exact (dvsInto_next_or_zero (w := .byte)).imp_right fun hzero => ⟨.divideByZero s.pc, rfl, hzero⟩
  | ent => exact enterProtected_next_or_prot.imp_right fun hp => ⟨.protectionViolation s.pc, rfl, hp, .inl rfl⟩
  | io n =>
    obtain hnext | hp | ⟨hp, hn⟩ := drivePins_next_or_denied n 2 s
    · exact .inl hnext
    · exact .inr ⟨.protectionViolation s.pc, rfl, hp, .inr ⟨n, rfl⟩⟩
    · exact .inr ⟨.illegalInstruction s.pc, rfl, n, rfl, hp, hn⟩
  -- the conditional branches, taken or not
  | beqL | beqS | bfeL | bfeS | bftL | bftS | bgeL | bgeS | bgtL | bgtS | bleL | bleS | bltL | bltS | bmeL | bmeS
  | bmtL | bmtS | bneL | bneS | bnzL | bnzS | brcL | brcS | brnL | brnS | broL | broS | brpL | brpS | brzL | brzS =>
    exact .inl ⟨_, branchIf_eq _ _ _ s⟩
  -- every other instruction answers its next state outright
  | addWR | addBR | addWI | addBI | adqWU | adqBU | adqWS | adqBS | adsWR | adsBR | adsWI | adsBI
  | subWR | subBR | subWI | subBI | sbqWU | sbqBU | sbqWS | sbqBS | sbsWR | sbsBR | sbsWI | sbsBI
  | mulWR | mulBR | mulWI | mulBI | mlsWR | mlsBR | mlsWI | mlsBI | negW | negB
  | andWR | andBR | andWI | andBI | orWR | orBR | orWI | orBI | xorWR | xorBR | xorWI | xorBI | notW | notB
  | shlW | shlB | shrW | shrB | rolW | rolB | rorW | rorB | swpW | swpB
  | cpyW | cpyB | clrW | clrB | stqW | stqB | excW | excB | lWR | lWA | lBR | lBA | sWR | sWA | sBR | sBA
  | pshWR | pshBR | pshWI | pshBI | popW | popB | tsr | trs | tpr | trp
  | cmpWR | cmpWQ | cmpBR | cmpBQ | cmpWI | cmpBI | dcpWI | dcpBI | dcpWR | dcpBR | zcpW | zcpB
  | braR | braL | braS | jmpR | jmpA | jsrR | jsrA | ret | lve | rti => exact .inl ⟨_, rfl⟩

/-- An instruction raises a fault exactly on its cause (R181). -/
theorem exec_fault_iff {i : Instr} {s : State} {f : Fault} : exec i s = .fault f ↔ InstrFaultCause i s f := by
  refine ⟨fun h => ?_, exec_of_instrFaultCause⟩
  obtain ⟨t, ht⟩ | ⟨g, hg⟩ := exec_next_or_faultCause i s
  · rw [ht] at h; cases h
  · have hgf : g = f := Host.Outcome.fault.inj ((exec_of_instrFaultCause hg).symm.trans h)
    exact hgf ▸ hg

/-- No instruction is refused. -/
theorem exec_ne_refused (i : Instr) (s : State) (r : Refusal) : exec i s ≠ .refused r := by
  intro h
  obtain ⟨t, ht⟩ | ⟨f, hf⟩ := exec_next_or_faultCause i s
  · rw [ht] at h; cases h
  · rw [exec_of_instrFaultCause hf] at h; cases h

/-! ### The faults of a step (R181) -/

/-- The fetch rejects the bytes at `pc` exactly where the opcode is unassigned or a printed-zero bit is 1 (R52, R53). -/
theorem fetch_error_iff (s : State) :
    (∃ e, s.fetch = .error e) ↔ Unassigned (s.mem.readByte s.pc) ∨
      PrintedZeroSet (s.mem.readByte s.pc) (s.mem.readByte (s.pc + 1#16)) (s.mem.readByte (s.pc + 3#16)) := by
  cases hrow : opcodeRow (s.mem.readByte s.pc).toNat with
  | none => exact iff_of_true ⟨_, fetch_of_no_row hrow⟩ (.inl ((unassigned_iff _).mpr hrow))
  | some row =>
    obtain ⟨i, hfetch⟩ := fetch_of_opcodeRow hrow
    rw [unassigned_iff, hrow, printedZeroSet_iff hrow, hfetch]
    cases row.zerosClear (s.mem.readByte (s.pc + 1#16)) (s.mem.readByte (s.pc + 3#16)) <;> simp

/-- The causes at bytes that the fetch rejects (R52, R53). -/
theorem faultCause_iff_of_fetch_error {s : State} {f : Fault} {e : DecodeError} (h : s.fetch = .error e) :
    FaultCause s f ↔ f = .illegalInstruction s.pc := by
  have hbytes : Unassigned _ ∨ PrintedZeroSet _ _ _ := (fetch_error_iff s).mp ⟨e, h⟩
  cases f <;> simp [FaultCause, h, hbytes]

/-- The causes at an instruction that was fetched are the instruction's own. -/
theorem faultCause_iff_of_fetch_ok {s : State} {f : Fault} {i : Instr} (h : s.fetch = .ok i) :
    FaultCause s f ↔ InstrFaultCause i s f := by
  have hbytes : ¬ (Unassigned _ ∨ PrintedZeroSet _ _ _) := mt (fetch_error_iff s).mpr (by simp [h])
  cases f <;> simp [FaultCause, InstrFaultCause, h, ← or_assoc, hbytes]

/-- A step whose fetch answers an instruction is that instruction's run (R23). -/
theorem step_of_fetch_ok {s : State} {i : Instr} (h : s.fetch = .ok i) : step s = exec i s := by
  rw [step, h]

/-- A step faults exactly on a cause of the fault table (R181). -/
theorem step_fault_iff (s : State) (f : Fault) : step s = .fault f ↔ FaultCause s f := by
  cases hfetch : s.fetch with
  | error e =>
    rw [step_of_fetch_error hfetch, faultCause_iff_of_fetch_error hfetch, Host.Outcome.fault.injEq, eq_comm]
  | ok i => rw [step_of_fetch_ok hfetch, faultCause_iff_of_fetch_ok hfetch, exec_fault_iff]

/-- No step is refused. -/
theorem step_ne_refused (s : State) (r : Refusal) : step s ≠ .refused r := by
  cases hfetch : s.fetch with
  | error e => rw [step_of_fetch_error hfetch]; exact fun h => by cases h
  | ok i => rw [step_of_fetch_ok hfetch]; exact exec_ne_refused i s r

/-- Settles O59: the step faults exactly on the causes of the table, and no arm of it refuses. -/
theorem faultsAreExactlyTheTable : Obligations.FaultsAreExactlyTheTable := by
  unfold Obligations.FaultsAreExactlyTheTable
  exact ⟨step_fault_iff, step_ne_refused⟩

end Sys2Proof.Machine
end

section
/-! SUPPORT. Encoding and decoding are inverse (R47, R50 of 30_encoding.md), format by format, and what they say of the
fetch (R23, R42, R44): the statements `DecodeInvertsEncode`, `EncodeInvertsDecode`, `PrintedWordsDecode`,
`StepRunsDecodedInstruction` and `StoredInstructionRunsNext`. -/

namespace Sys2Proof

/-! ### From an instruction to its bytes and back -/

section
variable {op : Byte} (p q : Reg) (n : Nibble) (b : Byte) (imm : Word) (rest : List Byte)

/-- Format RR reads its own fields back: two register fields (R47). -/
theorem decode_encRR {mk : Reg → Reg → Instr} (h : opcodeRow op.toNat = some (.rr mk)) :
    decode (encRR op p q ++ rest) = .ok (mk p q, rest) := by
  simp [encRR, decode_cons h, readOperands]

/-- Format R reads its own fields back: one register field over printed zeros (R47). -/
theorem decode_encR {mk : Reg → Instr} (h : opcodeRow op.toNat = some (.r mk)) :
    decode (encR op p ++ rest) = .ok (mk p, rest) := by
  simp [encR, decode_cons h, readOperands, zeroChecked]

/-- Format RN reads its own fields back: a register field and a quick field (R47). -/
theorem decode_encRN {mk : Reg → Nibble → Instr} (h : opcodeRow op.toNat = some (.rn mk)) :
    decode (encRN op p n ++ rest) = .ok (mk p n, rest) := by
  simp [encRN, decode_cons h, readOperands]

/-- Format N reads its own fields back: a quick field over printed zeros (R47). -/
theorem decode_encN {mk : Nibble → Instr} (h : opcodeRow op.toNat = some (.n mk)) :
    decode (encN op n ++ rest) = .ok (mk n, rest) := by
  simp [encN, decode_cons h, readOperands, zeroChecked]

/-- Format Z reads its own fields back: a printed-zero operand byte (R47). -/
theorem decode_encZ {i : Instr} (h : opcodeRow op.toNat = some (.z i)) :
    decode (encZ op ++ rest) = .ok (i, rest) := by
  simp [encZ, decode_cons h, readOperands, zeroChecked]

/-- Format B reads its own fields back: an 8-bit immediate (R47). -/
theorem decode_encB {mk : Byte → Instr} (h : opcodeRow op.toNat = some (.b mk)) :
    decode (encB op b ++ rest) = .ok (mk b, rest) := by
  simp [encB, decode_cons h, readOperands]

/-- Format RW reads its own fields back: a register field and a 16-bit immediate (R47). -/
theorem decode_encRW {mk : Reg → Word → Instr} (h : opcodeRow op.toNat = some (.rw mk)) :
    decode (encRW op p imm ++ rest) = .ok (mk p imm, rest) := by
  simp [encRW, decode_cons h, readOperands, zeroChecked]

/-- Format RB reads its own fields back: a register field and an 8-bit immediate, with byte 3 printed zero (R47). -/
theorem decode_encRB {mk : Reg → Byte → Instr} (h : opcodeRow op.toNat = some (.rb mk)) :
    decode (encRB op p b ++ rest) = .ok (mk p b, rest) := by
  simp [encRB, decode_cons h, readOperands, zeroChecked]

/-- Format W reads its own fields back: a 16-bit immediate (R47). -/
theorem decode_encW {mk : Word → Instr} (h : opcodeRow op.toNat = some (.w mk)) :
    decode (encW op imm ++ rest) = .ok (mk imm, rest) := by
  simp [encW, decode_cons h, readOperands, zeroChecked]

/-- Format QW reads its own fields back: a 16-bit address and the register in bits 3:0 (R47). -/
theorem decode_encQW {mk : Word → Reg → Instr} (h : opcodeRow op.toNat = some (.qw mk)) :
    decode (encQW op imm q ++ rest) = .ok (mk imm q, rest) := by
  simp [encQW, decode_cons h, readOperands, zeroChecked]

end

/-- Settles O1: an instruction is encoded in the format of its row, and each format reads its own fields back. -/
theorem decodeInvertsEncode : Obligations.DecodeInvertsEncode := by
  unfold Obligations.DecodeInvertsEncode
  intro i rest
  cases i with
  -- format RR
  | addWR p q | addBR p q | adsWR p q | adsBR p q | subWR p q | subBR p q | sbsWR p q | sbsBR p q | mulWR p q
  | mulBR p q | mlsWR p q | mlsBR p q | divWR p q | divBR p q | dvsWR p q | dvsBR p q | andWR p q | andBR p q
  | orWR p q | orBR p q | xorWR p q | xorBR p q | cpyW p q | cpyB p q | excW p q | excB p q | lWR p q | lBR p q
  | sWR p q | sBR p q | cmpWR p q | cmpBR p q | dcpWR p q | dcpBR p q =>
    exact decode_encRR p q rest rfl
  -- format R
  | negW p | negB p | notW p | notB p | swpW p | swpB p | clrW p | clrB p | pshWR p | pshBR p | popW p | popB p
  | tsr p | trs p | tpr p | trp p | zcpW p | zcpB p | jmpR p | jsrR p =>
    exact decode_encR p rest rfl
  -- format RN
  | adqWU p n | adqBU p n | adqWS p n | adqBS p n | sbqWU p n | sbqBU p n | sbqWS p n | sbqBS p n | shlW p n
  | shlB p n | shrW p n | shrB p n | rolW p n | rolB p n | rorW p n | rorB p n | stqW p n | stqB p n | cmpWQ p n
  | cmpBQ p n =>
    exact decode_encRN p n rest rfl
  -- format N
  | io n => exact decode_encN n rest rfl
  -- format Z
  | braR | ret | ent | lve | rti => exact decode_encZ rest rfl
  -- format B
  | pshBI b | beqS b | bfeS b | bftS b | bgeS b | bgtS b | bleS b | bltS b | bmeS b | bmtS b | bneS b | bnzS b
  | braS b | brcS b | brnS b | broS b | brpS b | brzS b =>
    exact decode_encB b rest rfl
  -- format RW
  | addWI p imm | adsWI p imm | subWI p imm | sbsWI p imm | mulWI p imm | mlsWI p imm | divWI p imm | dvsWI p imm
  | andWI p imm | orWI p imm | xorWI p imm | lWA p imm | lBA p imm | cmpWI p imm | dcpWI p imm =>
    exact decode_encRW p imm rest rfl
  -- format RB
  | addBI p b | adsBI p b | subBI p b | sbsBI p b | mulBI p b | mlsBI p b | divBI p b | dvsBI p b | andBI p b
  | orBI p b | xorBI p b | cmpBI p b | dcpBI p b =>
    exact decode_encRB p b rest rfl
  -- format W
  | pshWI imm | beqL imm | bfeL imm | bftL imm | bgeL imm | bgtL imm | bleL imm | bltL imm | bmeL imm | bmtL imm
  | bneL imm | bnzL imm | braL imm | brcL imm | brnL imm | broL imm | brpL imm | brzL imm | jmpA imm | jsrA imm =>
    exact decode_encW imm rest rfl
  -- format QW
  | sWA imm q | sBA imm q => exact decode_encQW q imm rest rfl

/-! ### From bytes to an instruction and back -/

/-- The instructions of a row are encoded under the opcode, in the row's format (R47, R50). -/
def OpcodeRow.EncodesAt (op : Byte) : OpcodeRow → Prop
  | .rr mk => ∀ p q, encode (mk p q) = encRR op p q
  | .r mk => ∀ p, encode (mk p) = encR op p
  | .rn mk => ∀ p n, encode (mk p n) = encRN op p n
  | .n mk => ∀ n, encode (mk n) = encN op n
  | .z i => encode i = encZ op
  | .b mk => ∀ b, encode (mk b) = encB op b
  | .rw mk => ∀ p imm, encode (mk p imm) = encRW op p imm
  | .rb mk => ∀ p b, encode (mk p b) = encRB op p b
  | .w mk => ∀ imm, encode (mk imm) = encW op imm
  | .qw mk => ∀ imm q, encode (mk imm q) = encQW op imm q

/-- Every row of the table is the format of its instructions' encodings (R50). -/
theorem encodesAt_of_opcodeRow {op : Byte} {row : OpcodeRow} (h : opcodeRow op.toNat = some row) :
    row.EncodesAt op := by
  have hrow : row.EncodesAt (BitVec.ofNat 8 op.toNat) := by
    refine opcodeRow_property (P := fun op row => row.EncodesAt (BitVec.ofNat 8 op)) ?_ ?_ ?_ ?_ ?_ ?_ ?_ h
    all_goals
      simp only [rowsArith, rowsLogic, rowsDataMove, rowsCompare, rowsBranch, rowsJump, rowsSystem,
        List.forall_mem_append, List.forall_mem_cons, List.not_mem_nil, false_implies, implies_true, and_true,
        OpcodeRow.EncodesAt]
      and_intros
      all_goals
        intros
        rfl
  rwa [BitVec.ofNat_toNat, BitVec.setWidth_eq] at hrow

/-- An operand byte whose low field is 0 is its high field (R46). -/
theorem hiNibble_append_zero {b : Byte} (h : loNibble b = 0#4) : hiNibble b ++ 0#4 = b := by
  rw [← h, nibbles_append]

/-- An operand byte whose high field is 0 is its low field (R46). -/
theorem zero_append_loNibble {b : Byte} (h : hiNibble b = 0#4) : 0#4 ++ loNibble b = b := by
  rw [← h, nibbles_append]

/-- The operand bytes that a row accepts are those of the instruction it answers (R46 to R48, R53). -/
theorem cons_eq_of_readOperands {op : Byte} {row : OpcodeRow} {bytes rest : List Byte} {i : Instr}
    (hrow : row.EncodesAt op) (h : readOperands op row bytes = .ok (i, rest)) : op :: bytes = encode i ++ rest := by
  unfold readOperands at h
  split at h
  -- format RR
  case h_1 => cases h; simp [hrow _ _, encRR, nibbles_append]
  -- format R
  case h_2 =>
    obtain ⟨hz, rfl, rfl⟩ := zeroChecked_ok h
    simp [hrow _, encR, hiNibble_append_zero (beq_iff_eq.mp hz)]
  -- format RN
  case h_3 => cases h; simp [hrow _ _, encRN, nibbles_append]
  -- format N
  case h_4 =>
    obtain ⟨hz, rfl, rfl⟩ := zeroChecked_ok h
    simp [hrow _, encN, hiNibble_append_zero (beq_iff_eq.mp hz)]
  -- format Z
  case h_5 =>
    obtain ⟨hz, rfl, rfl⟩ := zeroChecked_ok h
    have hrow : encode _ = encZ op := hrow
    simp [hrow, encZ, beq_iff_eq.mp hz]
  -- format B
  case h_6 => cases h; simp [hrow _, encB]
  -- format RW
  case h_7 =>
    obtain ⟨hz, rfl, rfl⟩ := zeroChecked_ok h
    simp [hrow _ _, encRW, hiNibble_append_zero (beq_iff_eq.mp hz)]
  -- format RB
  case h_8 =>
    obtain ⟨hz, rfl, rfl⟩ := zeroChecked_ok h
    obtain ⟨hlow, hlast⟩ := Bool.and_eq_true_iff.mp hz
    simp [hrow _ _, encRB, hiNibble_append_zero (beq_iff_eq.mp hlow), beq_iff_eq.mp hlast]
  -- format W
  case h_9 =>
    obtain ⟨hz, rfl, rfl⟩ := zeroChecked_ok h
    simp [hrow _, encW, beq_iff_eq.mp hz]
  -- format QW
  case h_10 =>
    obtain ⟨hz, rfl, rfl⟩ := zeroChecked_ok h
    simp [hrow _ _, encQW, zero_append_loNibble (beq_iff_eq.mp hz)]
  -- too few bytes for the format
  case h_11 => cases h

/-- Settles O2: the opcode byte has a row, and the bytes that the row accepts are those it encodes. -/
theorem encodeInvertsDecode : Obligations.EncodeInvertsDecode := by
  unfold Obligations.EncodeInvertsDecode
  intro bytes i rest h
  cases bytes with
  | nil => cases h
  | cons op bytes =>
    cases hrow : opcodeRow op.toNat with
    | none => rw [decode_unassigned hrow] at h; cases h
    | some row =>
      rw [decode_cons hrow] at h
      exact cons_eq_of_readOperands (encodesAt_of_opcodeRow hrow) h

/-- Settles O6: each encoding is a table row with its fields read off, so the decoder evaluates to it. -/
theorem printedWordsDecode : Obligations.PrintedWordsDecode := by
  unfold Obligations.PrintedWordsDecode
  exact ⟨rfl, rfl, rfl, rfl, rfl, rfl, rfl⟩

/-- The opcode byte of every instruction tells how many bytes it has (R51, R55): the laws of `Laws.EncodedLength`,
for all instructions at once. -/
theorem encodedLength (i : Instr) : Laws.EncodedLength.Statement i := by
  cases i <;> exact ⟨_, _, rfl, rfl⟩

end Sys2Proof

namespace Sys2Proof.Machine

/-! ### The bytes at `pc` -/

/-- The first bytes read from an address do not depend on how many more are read (R44). -/
theorem Memory.take_readBytes (m : Memory) (a : Word) (k n : Nat) :
    (m.readBytes a (k + n)).take k = m.readBytes a k := by
  induction k generalizing a with
  | zero => rfl
  | succ k ih => rw [Nat.succ_add, Memory.readBytes, Memory.readBytes, List.take_succ_cons, ih]

/-- Bytes stored at rising addresses leave every other byte (R33). -/
theorem Memory.readByte_writeBytes_other (m : Memory) {a c : Word} (bs : List Byte)
    (h : ∀ k < bs.length, c ≠ a + BitVec.ofNat 16 k) : (m.writeBytes a bs).readByte c = m.readByte c := by
  induction bs generalizing m a with
  | nil => rfl
  | cons b bs ih =>
    have hfirst : c ≠ a := by simpa using h 0 (by simp)
    have hlater : ∀ k < bs.length, c ≠ a + 1#16 + BitVec.ofNat 16 k := fun k hk => by
      rw [BitVec.add_assoc, ← BitVec.ofNat_add]
      exact h (1 + k) (by rw [List.length_cons]; omega)
    rw [Memory.writeBytes, ih _ hlater, Memory.readByte_writeByte_other m b hfirst]

/-- Fewer than 2^16 bytes on, an address is another one. -/
theorem Memory.ne_add_ofNat (a : Word) {k : Nat} (hk : 0 < k) (hlt : k < 65536) : a ≠ a + BitVec.ofNat 16 k := by
  intro h
  have hzero : BitVec.ofNat 16 k = 0#16 := left_eq_add.mp h
  have hmod : k % 65536 = 0 := congrArg BitVec.toNat hzero
  omega

/-- Bytes stored at rising addresses are read back, wrapping included, where there are no more than memory has
(R33, R44). -/
theorem Memory.readBytes_writeBytes {m : Memory} (h : m.wf) (a : Word) (bs : List Byte) (hlen : bs.length ≤ 65536) :
    (m.writeBytes a bs).readBytes a bs.length = bs := by
  induction bs generalizing m a with
  | nil => rfl
  | cons b bs ih =>
    rw [List.length_cons] at hlen
    have hfirst : ∀ k < bs.length, a ≠ a + 1#16 + BitVec.ofNat 16 k := fun k hk => by
      rw [BitVec.add_assoc, ← BitVec.ofNat_add]
      exact Memory.ne_add_ofNat a (by omega) (by omega)
    rw [List.length_cons, Memory.readBytes, Memory.writeBytes, Memory.readByte_writeBytes_other _ bs hfirst,
      Memory.readByte_writeByte_same h, ih (Memory.wf_writeByte h a b) (a + 1#16) (by omega)]

/-! ### The fetch of an encoded instruction (R23) -/

/-- Where the bytes at `pc` are an instruction's encoding, the fetch answers that instruction: the opcode byte makes it
read neither fewer nor more of them (R45, R51). -/
theorem fetch_of_readBytes {s : State} {i : Instr} (h : s.mem.readBytes s.pc (encode i).length = encode i) :
    s.fetch = .ok i := by
  obtain ⟨op, operands, henc, hlength⟩ := encodedLength i
  have hop : s.mem.readByte s.pc = op := by
    rw [henc, List.length_cons, Memory.readBytes] at h
    exact (List.cons.inj h).1
  have hbytes : s.fetchBytes = encode i := by
    rw [← h, State.fetchBytes, hop, hlength, henc, List.length_cons]
  have hdecode : decode (encode i) = .ok (i, []) := by simpa using decodeInvertsEncode i []
  rw [State.fetch, hbytes, hdecode]

/-- An instruction has no more than four bytes (R45). -/
theorem length_encode_le (i : Instr) : (encode i).length ≤ 4 := by
  obtain ⟨op, operands, henc, hlength⟩ := encodedLength i
  obtain ⟨row, -, hrow⟩ := Option.map_eq_some_iff.mp hlength
  have hformat : formatLength row ≤ 4 := by cases row <;> simp [formatLength]
  rw [henc, List.length_cons, ← hrow]
  exact hformat

/-- Settles O7: bytes that decode begin with the encoding of their instruction, so the fetch, which reads that many of
them, answers it. -/
theorem stepRunsDecodedInstruction : Obligations.StepRunsDecodedInstruction := by
  unfold Obligations.StepRunsDecodedInstruction
  intro s i rest h
  have hfour : s.mem.readBytes s.pc 4 = encode i ++ rest := encodeInvertsDecode _ i rest h
  have hbytes : s.mem.readBytes s.pc (encode i).length = encode i := by
    obtain ⟨n, hn⟩ := Nat.exists_eq_add_of_le (length_encode_le i)
    rw [← Memory.take_readBytes s.mem s.pc _ n, ← hn, hfour, List.take_left]
  exact step_of_fetch_ok (fetch_of_readBytes hbytes)

/-- Settles O8: the stored bytes read back, and bytes that are an encoding are fetched as their instruction. -/
theorem storedInstructionRunsNext : Obligations.StoredInstructionRunsNext := by
  unfold Obligations.StoredInstructionRunsNext
  intro s i hwf
  have hlength : (encode i).length ≤ 65536 := (length_encode_le i).trans (by decide)
  exact step_of_fetch_ok (fetch_of_readBytes (Memory.readBytes_writeBytes hwf s.pc (encode i) hlength))

end Sys2Proof.Machine
end

section
/-! SUPPORT. What holds across every step: memory stays canonical, the stack registers and the pins move only by their
own instructions (R18, R19, R21 of 10_state.md); and that a canonical memory is one list for each content. The
statements `EqualReadsAreEqualMemory`, `StepKeepsMemoryCanonical`, `StackRegistersMoveOnlyByTheirInstructions` and
`ProtectedRunsKeepPins`. -/

namespace Sys2Proof.Machine

open Sys2Proof.Safety

/-! ### One list for each content (log 3) -/

/-- The first cell of a canonical list: its address, its byte, and the cells after it. -/
theorem cellsFrom_cons {lo a : Nat} {v : Byte} {rest : List Host.Cell} :
    cellsFrom lo ((a, v) :: rest) ↔ lo ≤ a ∧ a < 65536 ∧ v ≠ Memory.unlisted ∧ cellsFrom (a + 1) rest := by
  simp [cellsFrom, and_assoc]

/-- A canonical list that reads as unlisted everywhere has no cell. -/
theorem cells_eq_nil {lo : Nat} {cells : List Host.Cell} (h : cellsFrom lo cells)
    (hread : ∀ a < 65536, lookupCell cells a = Memory.unlisted) : cells = [] := by
  cases cells with
  | nil => rfl
  | cons cell rest =>
    obtain ⟨a, v⟩ := cell
    obtain ⟨-, ha, hv, -⟩ := cellsFrom_cons.mp h
    have hread := hread a ha
    rw [lookupCell, if_pos rfl] at hread
    exact absurd hread hv

/-- The first cell of a canonical list stands no later than the first cell of a list that reads the same: what it
holds is listed there too. -/
theorem first_cell_le {lo a b : Nat} {v x : Byte} {rest rest' : List Host.Cell} (h : cellsFrom lo ((a, v) :: rest))
    (h' : cellsFrom lo ((b, x) :: rest'))
    (hread : ∀ c < 65536, lookupCell ((a, v) :: rest) c = lookupCell ((b, x) :: rest') c) : b ≤ a := by
  obtain ⟨-, ha, hv, -⟩ := cellsFrom_cons.mp h
  obtain ⟨-, hb, hx, hrest⟩ := cellsFrom_cons.mp h'
  by_contra hlt
  have hfrom : cellsFrom b ((b, x) :: rest') := cellsFrom_cons.mpr ⟨le_rfl, hb, hx, hrest⟩
  have hread := hread a ha
  rw [lookupCell_below hfrom (not_le.mp hlt), lookupCell, if_pos rfl] at hread
  exact hv hread

/-- Canonical lists that read the same are the same list. -/
theorem cells_ext {lo : Nat} {cells cells' : List Host.Cell} (h : cellsFrom lo cells) (h' : cellsFrom lo cells')
    (hread : ∀ a < 65536, lookupCell cells a = lookupCell cells' a) : cells = cells' := by
  induction cells generalizing lo cells' with
  | nil => exact (cells_eq_nil h' fun a ha => (hread a ha).symm).symm
  | cons cell rest ih =>
    cases cells' with
    | nil => exact cells_eq_nil h hread
    | cons cell' rest' =>
      obtain ⟨a, v⟩ := cell
      obtain ⟨b, x⟩ := cell'
      obtain rfl : a = b := le_antisymm (first_cell_le h' h fun c hc => (hread c hc).symm) (first_cell_le h h' hread)
      obtain ⟨-, ha, -, hrest⟩ := cellsFrom_cons.mp h
      obtain ⟨-, -, -, hrest'⟩ := cellsFrom_cons.mp h'
      obtain rfl : v = x := by simpa [lookupCell] using hread a ha
      have htail : ∀ c < 65536, lookupCell rest c = lookupCell rest' c := fun c hc => by
        by_cases hca : c = a
        · rw [hca, lookupCell_below hrest (Nat.lt_succ_self a), lookupCell_below hrest' (Nat.lt_succ_self a)]
        · simpa [lookupCell, hca] using hread c hc
      rw [ih hrest hrest' htail]

/-- Settles O10: the cells of the two memories are canonical lists that read the same. -/
theorem equalReadsAreEqualMemory : Obligations.EqualReadsAreEqualMemory := by
  unfold Obligations.EqualReadsAreEqualMemory
  intro m m' hwf hwf' hread
  have hcells : m.cells = m'.cells := cells_ext hwf hwf' fun a ha => by
    simpa [Memory.readByte, Nat.mod_eq_of_lt ha] using hread (BitVec.ofNat 16 a)
  cases m
  cases m'
  exact congrArg Memory.mk hcells

/-- One typed store, or none, keeps the canonical form. -/
theorem wf_of_storeEffect {dest : Option (Width × Word)} {m m' : Memory} (h : StoreEffect dest m m') (hwf : m.wf) :
    m'.wf := by
  cases dest with
  | none => obtain rfl : m' = m := h; exact hwf
  | some dest =>
    obtain ⟨v, rfl⟩ := h
    exact Memory.wf_writeAt hwf dest.1 dest.2 v

/-- Settles O11: the instruction of the step makes one typed store or none. -/
theorem stepKeepsMemoryCanonical : Obligations.StepKeepsMemoryCanonical := by
  unfold Obligations.StepKeepsMemoryCanonical
  intro s t hwf hstep
  obtain ⟨i, -, hexec⟩ := step_next hstep
  exact wf_of_storeEffect (exec_storeEffect hexec) hwf

/-! ### The stack registers and the pins -/

/-- What an instruction may do to `sp`, `pcs` and the pins: each moves only by the instructions that R18, R19 and R21
name. -/
structure SpecialMoves (i : Instr) (s t : State) : Prop where
  sp : movesSp i = false → t.sp = s.sp
  pcs : movesPcs i = false → t.pcs = s.pcs
  iopins : (∀ n, i ≠ .io n) → t.iopins = s.iopins

/-- How an instruction that moves none of the three meets its rule. -/
theorem SpecialMoves.of_kept {i : Instr} {s t : State} (sp : t.sp = s.sp) (pcs : t.pcs = s.pcs)
    (iopins : t.iopins = s.iopins) : SpecialMoves i s t := ⟨fun _ => sp, fun _ => pcs, fun _ => iopins⟩

/-- Every instruction moves `sp`, `pcs` and the pins only where it is named for that. -/
theorem exec_specialMoves {i : Instr} {s t : State} (h : exec i s = .next t) : SpecialMoves i s t := by
  cases i with
  -- the instructions that move the stack register
  | trs | pshWR | pshBR | pshWI | pshBI | popW | popB =>
    cases h; exact { sp := nofun, pcs := fun _ => rfl, iopins := fun _ => rfl }
  -- the instructions that move the PC Stack register
  | trp | jsrR | jsrA | ret | rti | lve =>
    cases h; exact { sp := fun _ => rfl, pcs := nofun, iopins := fun _ => rfl }
  | ent =>
    obtain ⟨-, rfl⟩ := enterProtected_next h
    exact { sp := fun _ => rfl, pcs := nofun, iopins := fun _ => rfl }
  -- the instruction that drives the pins
  | io n =>
    obtain ⟨-, -, rfl⟩ := drivePins_next h
    exact { sp := fun _ => rfl, pcs := fun _ => rfl, iopins := fun hio => absurd rfl (hio n) }
  -- the instructions that test something else
  | divWR | divWI => obtain ⟨-, rfl⟩ := divInto_next (w := .word) h; exact .of_kept rfl rfl rfl
  | divBR | divBI => obtain ⟨-, rfl⟩ := divInto_next (w := .byte) h; exact .of_kept rfl rfl rfl
  | dvsWR | dvsWI => obtain ⟨-, rfl⟩ := dvsInto_next (w := .word) h; exact .of_kept rfl rfl rfl
  | dvsBR | dvsBI => obtain ⟨-, rfl⟩ := dvsInto_next (w := .byte) h; exact .of_kept rfl rfl rfl
  | beqL | beqS | bfeL | bfeS | bftL | bftS | bgeL | bgeS | bgtL | bgtS | bleL | bleS | bltL | bltS | bmeL | bmeS
  | bmtL | bmtS | bneL | bneS | bnzL | bnzS | brcL | brcS | brnL | brnS | broL | broS | brpL | brpS | brzL | brzS =>
    cases h.symm.trans (branchIf_eq _ _ _ s); exact .of_kept rfl rfl rfl
  -- every other instruction answers updates of the registers, the flags, `pc` and memory outright
  | addWR | addBR | addWI | addBI | adqWU | adqBU | adqWS | adqBS | adsWR | adsBR | adsWI | adsBI
  | subWR | subBR | subWI | subBI | sbqWU | sbqBU | sbqWS | sbqBS | sbsWR | sbsBR | sbsWI | sbsBI
  | mulWR | mulBR | mulWI | mulBI | mlsWR | mlsBR | mlsWI | mlsBI | negW | negB
  | andWR | andBR | andWI | andBI | orWR | orBR | orWI | orBI | xorWR | xorBR | xorWI | xorBI | notW | notB
  | shlW | shlB | shrW | shrB | rolW | rolB | rorW | rorB | swpW | swpB
  | cpyW | cpyB | clrW | clrB | stqW | stqB | excW | excB | lWR | lWA | lBR | lBA | sWR | sWA | sBR | sBA | tsr | tpr
  | cmpWR | cmpWQ | cmpBR | cmpBQ | cmpWI | cmpBI | dcpWI | dcpBI | dcpWR | dcpBR | zcpW | zcpB
  | braR | braL | braS | jmpR | jmpA =>
    cases h; exact .of_kept rfl rfl rfl

/-- Settles O57: two of the three parts of `exec_specialMoves`. -/
theorem stackRegistersMoveOnlyByTheirInstructions : Obligations.StackRegistersMoveOnlyByTheirInstructions := by
  unfold Obligations.StackRegistersMoveOnlyByTheirInstructions
  intro i s t h
  exact ⟨(exec_specialMoves h).sp, (exec_specialMoves h).pcs⟩

/-- A step that changes the pins is an `io` outside Protected Mode (R21, R169). -/
theorem io_of_step_iopins_ne {s t : State} (hstep : step s = .next t) (hne : t.iopins ≠ s.iopins) :
    s.prot = false ∧ ∃ n, s.fetch = .ok (.io n) := by
  obtain ⟨i, hfetch, hexec⟩ := step_next hstep
  by_cases hio : ∃ n, i = .io n
  · obtain ⟨n, rfl⟩ := hio
    obtain ⟨hprot, -, -⟩ := drivePins_next hexec
    exact ⟨hprot, n, hfetch⟩
  · exact absurd ((exec_specialMoves hexec).iopins fun n hn => hio ⟨n, hn⟩) hne

/-- A step in Protected Mode that does not execute `lve` stays in it and keeps the pins (R186, R187). -/
theorem step_keeps_protected_pins {s t : State} (hprot : s.prot = true) (hlve : s.fetch ≠ .ok .lve)
    (hstep : step s = .next t) : t.prot = true ∧ t.iopins = s.iopins := by
  refine ⟨?mode, ?pins⟩
  case mode =>
    obtain ⟨-, hmode⟩ := modeChangesOnlyByEntAndLve
    obtain ⟨-, -, hent⟩ | ⟨hfetch, -⟩ | ⟨-, -, hkept⟩ := hmode s t hstep
    · exact hent
    · exact absurd hfetch hlve
    · rw [hkept, hprot]
  case pins =>
    by_contra hne
    obtain ⟨hopen, -⟩ := io_of_step_iopins_ne hstep hne
    rw [hprot] at hopen
    cases hopen

/-- Settles O55: the second part by induction on the length of the run, one protected step at a time. -/
theorem protectedRunsKeepPins : Obligations.ProtectedRunsKeepPins := by
  unfold Obligations.ProtectedRunsKeepPins
  refine ⟨fun s t => io_of_step_iopins_ne, fun k s t hprot hrun => ?run⟩
  case run =>
    induction k generalizing s with
    | zero => obtain rfl : s = t := hrun; exact ⟨hprot, rfl⟩
    | succ k ih =>
      obtain ⟨hlve, u, hstep, hrun⟩ := hrun
      obtain ⟨hprotU, hpinsU⟩ := step_keeps_protected_pins hprot hlve hstep
      obtain ⟨hprotT, hpinsT⟩ := ih u hprotU hrun
      exact ⟨hprotT, hpinsT.trans hpinsU⟩

end Sys2Proof.Machine
end

section
/-! SUPPORT. Typed access (R12 of 10_state.md) and the effect of an instruction whose one destination is a register;
with it the arithmetic statements of 40_arithmetic.md: `AdditionsWriteSumAndFlags` to `NegWritesNegationAndNoFlag`. -/

namespace Sys2Proof.Machine

/-! ### Typed access (R12) -/

/-- A word read is the whole register (R12). -/
theorem State.xr_word (s : State) (i : Reg) : s.xr i .word = s.x i := BitVec.setWidth_eq (s.x i)

/-- A byte read is bits 7:0 of the register (R12). -/
theorem State.xr_byte (s : State) (i : Reg) : s.xr i .byte = (s.x i).extractLsb' 0 8 :=
  BitVec.setWidth_eq_extractLsb' (by decide)

/-- A byte write keeps bits 15:8 of every register (R11, R12). -/
theorem State.upper_xw_byte (s : State) (p j : Reg) (v : Byte) :
    ((s.xw p .byte v).x j).extractLsb' 8 8 = (s.x j).extractLsb' 8 8 := by
  by_cases hjp : j = p
  · rw [hjp, State.xw_x_same, upper_mergeReg_byte]
  · rw [State.xw_x_other s .byte v hjp]

end Sys2Proof.Machine

namespace Sys2Proof.Safety

open Sys2Proof.Machine Sys2Proof.Claims

/-- A typed write leaves every register but its own (R11). -/
theorem regsKeptBut_xw (s : State) (p : Reg) (w : Width) (r : BitVec w.bits) : RegsKeptBut p s (s.xw p w r) :=
  fun _ hi => s.xw_x_other w r hi

/-- A byte write keeps bits 15:8 of its register (R12). -/
theorem upper_xw (s : State) (p : Reg) (w : Width) (r : BitVec w.bits) (hw : w = .byte) :
    ((s.xw p w r).x p).extractLsb' 8 8 = (s.x p).extractLsb' 8 8 := by
  subst hw
  exact s.upper_xw_byte p p r

/-- Settles O13: reads and writes of each width by their lemmas, the other registers by `regsKeptBut_xw`. -/
theorem typedAccessUsesLowByte : Obligations.TypedAccessUsesLowByte := by
  unfold Obligations.TypedAccessUsesLowByte
  intro s i v b
  exact ⟨s.xr_word i, s.xr_byte i, s.xw_x_same i .word v, s.xw_x_same i .byte b, regsKeptBut_xw s i .word v,
    regsKeptBut_xw s i .byte b⟩

/-! ### One destination register -/

/-- A typed write, the flags set and `pc` advanced: the effect of every instruction whose one destination is a register
(R12, R15). -/
theorem registerResult_xw (s : State) (p : Reg) (w : Width) (r : BitVec w.bits) (f : Flags) (len : Nat) :
    RegisterResult w p r len s (((s.xw p w r).setFlags f).advance len) where
  result := s.xw_xr_same p w r
  upper := upper_xw s p w r
  others := regsKeptBut_xw s p w r
  pc := rfl
  special := ⟨rfl, rfl, rfl, rfl, rfl⟩
  memory := fun _ => rfl

section
variable {i : Instr} {w : Width} {p : Reg} {len : Nat} {s : State}

/-! ### Addition and subtraction (R71 to R78) -/

/-- `add`, `ads` and `adq` complete with the wrapped sum and its flags. -/
theorem addsTo_of_addInto {b : BitVec w.bits} (h : exec i s = addInto w p b len s) : AddsTo i w p b len s := by
  have hsum : BitVec.ofNat w.bits ((s.xr p w).toNat + b.toNat) = s.xr p w + b := by
    rw [BitVec.ofNat_add, BitVec.ofNat_toNat, BitVec.ofNat_toNat, BitVec.setWidth_eq, BitVec.setWidth_eq]
  rw [AddsTo, hsum]
  exact ⟨_, h, registerResult_xw s p w _ _ len, addFlagRule_addFlags (s.xr p w) b⟩

/-- `sub`, `sbs` and `sbq` complete with the wrapped difference and its flags. -/
theorem subtractsFrom_of_subInto {b : BitVec w.bits} (h : exec i s = subInto w p b len s) :
    SubtractsFrom i w p b len s := by
  have hdiff : BitVec.ofInt w.bits ((s.xr p w).toInt - b.toInt) = s.xr p w - b := by
    rw [sub_eq_add_neg, BitVec.ofInt_add, BitVec.ofInt_neg, BitVec.ofInt_toInt, BitVec.ofInt_toInt, ← sub_eq_add_neg]
  rw [SubtractsFrom, hdiff]
  exact ⟨_, h, registerResult_xw s p w _ _ len, subFlagRule_subFlags (s.xr p w) b⟩

end

/-- Settles O17: each form is `addInto` at its operand. -/
theorem additionsWriteSumAndFlags : Obligations.AdditionsWriteSumAndFlags := by
  unfold Obligations.AdditionsWriteSumAndFlags
  intro s p q n imm b
  exact ⟨
    -- add.w, add.b: RR, immediate
    addsTo_of_addInto rfl, addsTo_of_addInto rfl, addsTo_of_addInto rfl, addsTo_of_addInto rfl,
    -- ads.w, ads.b: RR, immediate
    addsTo_of_addInto rfl, addsTo_of_addInto rfl, addsTo_of_addInto rfl, addsTo_of_addInto rfl,
    -- adq.w, adq.b: unsigned, signed
    addsTo_of_addInto rfl, addsTo_of_addInto rfl, addsTo_of_addInto rfl, addsTo_of_addInto rfl⟩

/-- Settles O18: each form is `subInto` at its operand. -/
theorem subtractionsWriteDifferenceAndFlags : Obligations.SubtractionsWriteDifferenceAndFlags := by
  unfold Obligations.SubtractionsWriteDifferenceAndFlags
  intro s p q n imm b
  exact ⟨
    -- sub.w, sub.b: RR, immediate
    subtractsFrom_of_subInto rfl, subtractsFrom_of_subInto rfl, subtractsFrom_of_subInto rfl,
    subtractsFrom_of_subInto rfl,
    -- sbs.w, sbs.b: RR, immediate
    subtractsFrom_of_subInto rfl, subtractsFrom_of_subInto rfl, subtractsFrom_of_subInto rfl,
    subtractsFrom_of_subInto rfl,
    -- sbq.w, sbq.b: unsigned, signed
    subtractsFrom_of_subInto rfl, subtractsFrom_of_subInto rfl, subtractsFrom_of_subInto rfl,
    subtractsFrom_of_subInto rfl⟩

/-! ### Multiplication (R79, R80) -/

section
variable {w : Nat} (a b : BitVec w)

/-- The low bits of the unsigned product are the product of words (R79). -/
theorem mulResult_eq : mulResult a b = a * b := by
  rw [mulResult, BitVec.ofNat_mul, BitVec.ofNat_toNat, BitVec.ofNat_toNat, BitVec.setWidth_eq, BitVec.setWidth_eq]

/-- The low bits of the signed product are the same (R80). -/
theorem mlsResult_eq : mlsResult a b = a * b := by
  rw [mlsResult, BitVec.ofInt_mul, BitVec.ofInt_toInt, BitVec.ofInt_toInt]

/-- V of `mls` says that the signed product is out of range (R80). -/
theorem mlsFlags_v : (mlsFlags a b).v = true ↔ ¬ FitsSigned w (a.toInt * b.toInt) := by
  have hbound : ((2 ^ (w - 1) : Nat) : Int) = 2 ^ (w - 1) := by push_cast; rfl
  rw [not_fitsSigned_iff, mlsFlags, flagsOf_v, Bool.or_eq_true, decide_eq_true_iff, decide_eq_true_iff, hbound, or_comm,
    Int.sub_one_lt_iff]

end

section
variable {i : Instr} {w : Width} {p : Reg} {b : BitVec w.bits} {len : Nat} {s : State}

/-- `mul` completes with the low bits of the product; C and V are one bit. -/
theorem multipliesUnsigned_of_mulInto (h : exec i s = mulInto w p b len s) : MultipliesUnsigned i w p b len s := by
  rw [MultipliesUnsigned, ← mulResult_eq]
  exact ⟨_, h, registerResult_xw s p w _ _ len, nz_flagsOf _ _ _, decide_eq_true_iff, rfl⟩

/-- `mls` completes with the low bits of the product; C and V are one bit. -/
theorem multipliesSigned_of_mlsInto (h : exec i s = mlsInto w p b len s) : MultipliesSigned i w p b len s := by
  rw [MultipliesSigned, ← mlsResult_eq]
  exact ⟨_, h, registerResult_xw s p w _ _ len, nz_flagsOf _ _ _, mlsFlags_v (s.xr p w) b, rfl⟩

end

/-- Settles O19: each form is `mulInto` at its operand. -/
theorem mulWritesLowProduct : Obligations.MulWritesLowProduct := by
  unfold Obligations.MulWritesLowProduct
  intro s p q imm b
  exact ⟨multipliesUnsigned_of_mulInto rfl, multipliesUnsigned_of_mulInto rfl, multipliesUnsigned_of_mulInto rfl,
    multipliesUnsigned_of_mulInto rfl⟩

/-- Settles O20: each form is `mlsInto` at its operand. -/
theorem mlsWritesLowSignedProduct : Obligations.MlsWritesLowSignedProduct := by
  unfold Obligations.MlsWritesLowSignedProduct
  intro s p q imm b
  exact ⟨multipliesSigned_of_mlsInto rfl, multipliesSigned_of_mlsInto rfl, multipliesSigned_of_mlsInto rfl,
    multipliesSigned_of_mlsInto rfl⟩

/-! ### Division (R81, R82) -/

section
variable {w : Nat} {a b : BitVec w}

/-- The unsigned quotient fits the width, so it is not narrowed (R81). -/
theorem toNat_divResult : (divResult a b).toNat = a.toNat / b.toNat := by
  rw [divResult, BitVec.toNat_ofNat]
  exact Nat.mod_eq_of_lt ((Nat.div_le_self _ _).trans_lt a.isLt)

/-- The signed quotient's magnitude is the quotient of the magnitudes (R82). -/
theorem natAbs_dvsQuotient : (dvsQuotient a b).natAbs = a.toInt.natAbs / b.toInt.natAbs :=
  Int.natAbs_tdiv a.toInt b.toInt

/-- A signed quotient that is not zero has the sign of the product (R82). -/
theorem sign_dvsQuotient (h : dvsQuotient a b ≠ 0) : (dvsQuotient a b).sign = (a.toInt * b.toInt).sign := by
  have hlarge : ¬ a.toInt.natAbs < b.toInt.natAbs := fun hlt => by
    have hzero := natAbs_dvsQuotient (a := a) (b := b)
    rw [Nat.div_eq_of_lt hlt] at hzero
    exact h (Int.natAbs_eq_zero.mp hzero)
  rw [dvsQuotient, Int.sign_tdiv, if_neg hlarge, Int.sign_mul]

/-- The one signed quotient that passes the top of the range (R82): a divisor of magnitude 2 or more halves the
dividend, a divisor of 1 keeps it in range. -/
theorem le_dvsQuotient_iff (hb : b ≠ 0#w) :
    2 ^ (w - 1) ≤ dvsQuotient a b ↔ a.toInt = -(2 ^ (w - 1)) ∧ b.toInt = -1 := by
  have hlow : -2 ^ (w - 1) ≤ a.toInt := a.le_toInt
  have hhigh : a.toInt < 2 ^ (w - 1) := a.toInt_lt
  have hbound : (0 : Int) < 2 ^ (w - 1) := by positivity
  have hzero : b.toInt ≠ 0 := fun h => hb (BitVec.eq_of_toInt_eq (h.trans BitVec.toInt_zero.symm))
  generalize (2 : Int) ^ (w - 1) = bound at hlow hhigh hbound
  constructor
  · intro hover
    have hmagnitude : (dvsQuotient a b).natAbs = a.toInt.natAbs / b.toInt.natAbs := natAbs_dvsQuotient
    by_cases hbig : 2 ≤ b.toInt.natAbs
    · have hhalf : a.toInt.natAbs / b.toInt.natAbs ≤ a.toInt.natAbs / 2 := Nat.div_le_div_left hbig (by decide)
      omega
    · obtain hone | hminus : b.toInt = 1 ∨ b.toInt = -1 := by omega
      · rw [dvsQuotient, hone, Int.tdiv_one] at hover
        omega
      · rw [dvsQuotient, hminus, Int.tdiv_neg, Int.tdiv_one] at hover
        omega
  · rintro ⟨ha, hminus⟩
    rw [dvsQuotient, ha, hminus, Int.neg_tdiv_neg, Int.tdiv_one]

/-- No signed quotient passes the bottom of the range (R82). -/
theorem neg_le_dvsQuotient : -(2 ^ (w - 1)) ≤ dvsQuotient a b := by
  have hlow : -2 ^ (w - 1) ≤ a.toInt := a.le_toInt
  have hhigh : a.toInt < 2 ^ (w - 1) := a.toInt_lt
  have hmagnitude : (dvsQuotient a b).natAbs = a.toInt.natAbs / b.toInt.natAbs := natAbs_dvsQuotient
  have hle : a.toInt.natAbs / b.toInt.natAbs ≤ a.toInt.natAbs := Nat.div_le_self _ _
  omega

/-- V of `dvs` says that the quotient passes the top of the range (R82). -/
theorem dvsFlags_v : (dvsFlags a b).v = true ↔ 2 ^ (w - 1) ≤ dvsQuotient a b := by
  have hbound : ((2 ^ (w - 1) : Nat) : Int) = 2 ^ (w - 1) := by push_cast; rfl
  rw [dvsFlags, flagsOf_v, decide_eq_true_iff, hbound, Int.sub_one_lt_iff]

/-- V of `dvs` says that the quotient is out of range (R82). -/
theorem dvsFlags_v_iff_not_fitsSigned : (dvsFlags a b).v = true ↔ ¬ FitsSigned w (dvsQuotient a b) := by
  rw [dvsFlags_v, not_fitsSigned_iff, or_iff_left neg_le_dvsQuotient.not_gt]

end

section
variable {i : Instr} {w : Width} {p : Reg} {b : BitVec w.bits} {len : Nat} {s : State}

/-- `div` by a divisor that is not zero completes with the floor quotient. -/
theorem dividesUnsigned_of_divInto (h : exec i s = divInto w p b len s) (hb : b ≠ 0#w.bits) :
    DividesUnsigned i w p b len s := by
  have hnext : exec i s = writeResult w p (divResult (s.xr p w) b) (divFlags (s.xr p w) b) len s :=
    h.trans (if_neg hb)
  have hpos : 0 < b.toNat := Nat.pos_of_ne_zero fun h0 => hb (BitVec.eq_of_toNat_eq h0)
  refine ⟨_, hnext, divResult (s.xr p w) b, ?floor, ?remainder, registerResult_xw s p w _ _ len, nz_flagsOf _ _ _, rfl,
    rfl⟩
  case floor => rw [toNat_divResult]; exact Nat.div_mul_le_self _ _
  case remainder => rw [toNat_divResult, mul_comm]; exact Nat.lt_mul_div_succ _ hpos

/-- `dvs` by a divisor that is not zero completes with the quotient rounded toward zero. -/
theorem dividesSigned_of_dvsInto (h : exec i s = dvsInto w p b len s) (hb : b ≠ 0#w.bits) :
    DividesSigned i w p b len s := by
  have hnext : exec i s = writeResult w p (dvsResult (s.xr p w) b) (dvsFlags (s.xr p w) b) len s :=
    h.trans (if_neg hb)
  exact ⟨_, hnext, dvsQuotient (s.xr p w) b, natAbs_dvsQuotient, sign_dvsQuotient, registerResult_xw s p w _ _ len,
    nz_flagsOf _ _ _, dvsFlags_v_iff_not_fitsSigned, dvsFlags_v.trans (le_dvsQuotient_iff hb), rfl⟩

end

/-- Settles O21: each form is `divInto` at its divisor. -/
theorem divWritesFloorQuotient : Obligations.DivWritesFloorQuotient := by
  unfold Obligations.DivWritesFloorQuotient
  intro s p q imm b
  exact ⟨dividesUnsigned_of_divInto rfl, dividesUnsigned_of_divInto (w := .word) rfl, dividesUnsigned_of_divInto rfl,
    dividesUnsigned_of_divInto (w := .byte) rfl⟩

/-- Settles O22: each form is `dvsInto` at its divisor. -/
theorem dvsWritesTruncatedQuotient : Obligations.DvsWritesTruncatedQuotient := by
  unfold Obligations.DvsWritesTruncatedQuotient
  intro s p q imm b
  exact ⟨dividesSigned_of_dvsInto rfl, dividesSigned_of_dvsInto (w := .word) rfl, dividesSigned_of_dvsInto rfl,
    dividesSigned_of_dvsInto (w := .byte) rfl⟩

/-! ### Instructions that write no flag -/

/-- An instruction that writes a register and no flag completes with it. -/
theorem quietTo_of_writeQuietly {i : Instr} {w : Width} {p : Reg} {r : BitVec w.bits} {len : Nat} {s : State}
    (h : exec i s = writeQuietly w p r len s) : QuietTo i w p r len s :=
  ⟨_, h, registerResult_xw s p w r s.flags len, rfl⟩

/-- Settles O24: zero minus the operand is its negation. -/
theorem negWritesNegationAndNoFlag : Obligations.NegWritesNegationAndNoFlag := by
  unfold Obligations.NegWritesNegationAndNoFlag
  intro s p
  rw [← BitVec.zero_sub (s.xr p .word), ← BitVec.zero_sub (s.xr p .byte)]
  exact ⟨quietTo_of_writeQuietly rfl, quietTo_of_writeQuietly rfl⟩

end Sys2Proof.Safety
end

section
/-! SUPPORT. The bitwise, shift, rotate and swap instructions (41_logic_shift.md), and the statements
`BitwiseWriteResultAndClearVC` to `SwpExchangesHalves`. The model computes shifts by products and quotients with powers
of two; the first part ties these to the library's shifts. -/

namespace Sys2Proof.Machine

/-! ### Shifts as products and quotients (R94, R95) -/

section
variable {w : Nat} (a : BitVec w) (k : Nat)

/-- A left shift is the product with a power of two (R94). -/
theorem shlResult_eq : shlResult a k = a <<< k := by
  rw [shlResult, ← Nat.shiftLeft_eq]
  rfl

/-- A right shift is the quotient by a power of two (R95). -/
theorem shrResult_eq : shrResult a k = a >>> k := by
  rw [shrResult, ← Nat.shiftRight_eq_div_pow, ← BitVec.toNat_ushiftRight, BitVec.ofNat_toNat, BitVec.setWidth_eq]

/-- C of `shl`: a 1 bit moved to position `w` or above (R94). -/
theorem shlCarry_iff : shlCarry a k = true ↔ ∃ j, w ≤ j + k ∧ a.getLsbD j = true := by
  rw [shlCarry, decide_eq_true_iff, ← Nat.shiftLeft_eq]
  constructor
  · intro h
    obtain ⟨i, hi, hbit⟩ := Nat.exists_ge_and_testBit_of_ge_two_pow h
    rw [Nat.testBit_shiftLeft, Bool.and_eq_true, decide_eq_true_iff] at hbit
    exact ⟨i - k, by omega, hbit.2⟩
  · rintro ⟨j, hj, (hbit : a.toNat.testBit j = true)⟩
    have hmoved : (a.toNat <<< k).testBit (j + k) = true := by simp [Nat.testBit_shiftLeft, hbit]
    exact (Nat.pow_le_pow_right (by decide) hj).trans (Nat.ge_two_pow_of_testBit hmoved)

/-- C of `shr`: a 1 bit below position `k` (R95). -/
theorem shrCarry_iff : shrCarry a k = true ↔ ∃ j, j < k ∧ a.getLsbD j = true := by
  have hlow (j : Nat) : (a.toNat % 2 ^ k).testBit j = true ↔ j < k ∧ a.getLsbD j = true := by
    rw [Nat.testBit_mod_two_pow, Bool.and_eq_true, decide_eq_true_iff]
    rfl
  rw [shrCarry, decide_eq_true_iff]
  constructor
  · intro h
    obtain ⟨j, hbit⟩ := Nat.exists_testBit_of_ne_zero h
    exact ⟨j, (hlow j).mp hbit⟩
  · rintro ⟨j, hj⟩ hzero
    have hbit := (hlow j).mpr hj
    rw [hzero, Nat.zero_testBit] at hbit
    cases hbit

/-! ### Rotations and the exchange of halves (R96 to R98) -/

/-- `rol` is the library's rotation, which takes the count modulo the width (R96). -/
theorem rolResult_eq : rolResult a k = a.rotateLeft k := by
  rw [BitVec.rotateLeft_def, ← shlResult_eq, ← shrResult_eq]
  rfl

/-- `ror` is the library's rotation, which takes the count modulo the width (R97). -/
theorem rorResult_eq : rorResult a k = a.rotateRight k := by
  rw [BitVec.rotateRight_def, ← shlResult_eq, ← shrResult_eq]
  rfl

/-- The exchange of halves as two shifts (R98). -/
theorem swpResult_eq : swpResult a = a <<< (w / 2) ||| a >>> (w / 2) := by
  rw [← shlResult_eq, ← shrResult_eq]
  rfl

end

/-- The exchange of halves, half by half, at every even width (R98). -/
theorem swpResult_eq_append (k : Nat) (a : BitVec (k + k)) :
    swpResult a = a.extractLsb' 0 k ++ a.extractLsb' k k := by
  have hhalf : (k + k) / 2 = k := by omega
  rw [swpResult_eq, hhalf]
  refine BitVec.eq_of_getLsbD_eq fun i hi => ?_
  simp only [BitVec.getLsbD_or, BitVec.getLsbD_shiftLeft, BitVec.getLsbD_ushiftRight, BitVec.getLsbD_append,
    BitVec.getLsbD_extractLsb']
  by_cases hlow : i < k
  · simp [hlow]
  · have htop : a.getLsbD (k + i) = false := BitVec.getLsbD_of_ge a _ (by omega)
    have hshift : i - k < k := by omega
    simp [hlow, hi, htop, hshift]

end Sys2Proof.Machine

namespace Sys2Proof.Safety

open Sys2Proof.Machine Sys2Proof.Claims

section
variable {i : Instr} {w : Width} {p : Reg} {r : BitVec w.bits} {len : Nat} {s : State}

/-- A bitwise result is written with N and Z of it, V and C cleared (R99). -/
theorem logicTo_of_writeLogic (h : exec i s = writeLogic w p r len s) : LogicTo i w p r len s :=
  ⟨_, h, registerResult_xw s p w r _ len, nz_flagsOf _ _ _, rfl, rfl⟩

/-- `shl` writes the shifted value and, of the flags, C alone (R94). -/
theorem shiftsLeft_of_shiftLeft {n : Nibble} (h : exec i s = shiftLeft w p n 2 s) : ShiftsLeft i w p n.toNat s := by
  rw [ShiftsLeft, ← shlResult_eq]
  exact ⟨_, h, registerResult_xw s p w _ _ 2, shlCarry_iff _ _, rfl, rfl, rfl⟩

/-- `shr` writes the shifted value and, of the flags, C alone (R95). -/
theorem shiftsRight_of_shiftRight {n : Nibble} (h : exec i s = shiftRight w p n 2 s) :
    ShiftsRight i w p n.toNat s := by
  rw [ShiftsRight, ← shrResult_eq]
  exact ⟨_, h, registerResult_xw s p w _ _ 2, shrCarry_iff _ _, rfl, rfl, rfl⟩

end

/-- Settles O25: each form is `writeLogic` of its bitwise result. -/
theorem bitwiseWriteResultAndClearVC : Obligations.BitwiseWriteResultAndClearVC := by
  unfold Obligations.BitwiseWriteResultAndClearVC
  intro s p q imm b
  exact ⟨
    -- and.w, and.b: RR, immediate
    logicTo_of_writeLogic rfl, logicTo_of_writeLogic rfl, logicTo_of_writeLogic rfl, logicTo_of_writeLogic rfl,
    -- or.w, or.b: RR, immediate
    logicTo_of_writeLogic rfl, logicTo_of_writeLogic rfl, logicTo_of_writeLogic rfl, logicTo_of_writeLogic rfl,
    -- xor.w, xor.b: RR, immediate
    logicTo_of_writeLogic rfl, logicTo_of_writeLogic rfl, logicTo_of_writeLogic rfl, logicTo_of_writeLogic rfl,
    -- not
    logicTo_of_writeLogic rfl, logicTo_of_writeLogic rfl⟩

/-- Settles O26: both forms are `shiftLeft`. -/
theorem shlWritesShiftAndLostBits : Obligations.ShlWritesShiftAndLostBits := by
  unfold Obligations.ShlWritesShiftAndLostBits
  intro s p n
  exact ⟨shiftsLeft_of_shiftLeft rfl, shiftsLeft_of_shiftLeft rfl⟩

/-- Settles O27: both forms are `shiftRight`. -/
theorem shrWritesShiftAndLostBits : Obligations.ShrWritesShiftAndLostBits := by
  unfold Obligations.ShrWritesShiftAndLostBits
  intro s p n
  exact ⟨shiftsRight_of_shiftRight rfl, shiftsRight_of_shiftRight rfl⟩

/-- Settles O28: the results of `rol` and `ror` are the library's rotations, written without a flag. -/
theorem rollsRotateWithinWidth : Obligations.RollsRotateWithinWidth := by
  unfold Obligations.RollsRotateWithinWidth
  intro s p n
  simp only [← rolResult_eq, ← rorResult_eq]
  exact ⟨quietTo_of_writeQuietly rfl, quietTo_of_writeQuietly rfl, quietTo_of_writeQuietly rfl,
    quietTo_of_writeQuietly rfl⟩

/-- Settles O29: the halves of the operand, read at its width, are fields of the register. -/
theorem swpExchangesHalves : Obligations.SwpExchangesHalves := by
  unfold Obligations.SwpExchangesHalves
  intro s p
  have hword : swpResult (s.xr p .word) = (s.x p).extractLsb' 0 8 ++ (s.x p).extractLsb' 8 8 := by
    rw [State.xr_word]
    exact swpResult_eq_append 8 (s.x p)
  have hbyte : swpResult (s.xr p .byte) = (s.x p).extractLsb' 0 4 ++ (s.x p).extractLsb' 4 4 := by
    rw [State.xr_byte]
    refine (swpResult_eq_append 4 _).trans ?_
    rw [BitVec.extractLsb'_extractLsb'_of_le (by decide), BitVec.extractLsb'_extractLsb'_of_le (by decide)]
  rw [← hword, ← hbyte]
  exact ⟨quietTo_of_writeQuietly rfl, quietTo_of_writeQuietly rfl⟩

end Sys2Proof.Safety
end

section
/-! SUPPORT. Data movement (42_data_move.md) and comparison (43_compare.md): the statements `CpyCopiesAndSetsFlags` to
`ZcpWritesZAlone`. -/

namespace Sys2Proof.Machine

/-! ### Reads after typed writes (R12) -/

/-- A typed read after a typed write, of the same register or another one (R12). -/
theorem State.xw_xr (s : State) (i j : Reg) (w : Width) (v : BitVec w.bits) :
    (s.xw i w v).xr j w = if j = i then v else s.xr j w := by
  split_ifs with hji
  · rw [hji, State.xw_xr_same]
  · exact s.xw_xr_other w v hji

/-- Of two typed writes, the first register reads what it was given, also where the second is the same register given
the same value. -/
theorem State.xw_xw_xr_first (s : State) {p q : Reg} (w : Width) (b a : BitVec w.bits) (hab : p = q → a = b) :
    ((s.xw p w b).xw q w a).xr p w = b := by
  rw [State.xw_xr, State.xw_xr_same]
  split_ifs with hpq
  · exact hab hpq
  · rfl

/-! ### Quick immediates (R48) -/

/-- A zero-extended 4-bit field keeps its value at either width (R48). -/
theorem toNat_quickU (w : Width) (n : Nibble) : (quickU w n).toNat = n.toNat := by
  have hbits : 4 ≤ w.bits := by cases w <;> decide
  rw [quickU, BitVec.toNat_setWidth_of_le hbits]

/-- A zero-extended 4-bit field is zero only where the field is (R48, R107). -/
theorem quickU_eq_zero_iff (w : Width) (n : Nibble) : quickU w n = 0#w.bits ↔ n = 0#4 := by
  rw [← BitVec.toNat_inj, ← BitVec.toNat_inj, toNat_quickU, BitVec.toNat_ofNat, BitVec.toNat_ofNat, Nat.zero_mod,
    Nat.zero_mod]

/-- The flags with N and Z written follow R17. -/
theorem nz_setNZ {w : Nat} (r : BitVec w) (f : Flags) : Safety.NZ r (setNZ r f) where
  n := rfl
  z := decide_eq_true_iff

end Sys2Proof.Machine

namespace Sys2Proof.Safety

open Sys2Proof.Machine Sys2Proof.Claims

/-! ### Register to register -/

section
variable {i : Instr} {w : Width} {p q : Reg} {len : Nat} {s : State}

/-- `clr` writes zero and the flags of zero (R106). -/
theorem completes_of_clearReg (h : exec i s = clearReg w p len s) :
    Completes i s fun t => RegisterResult w p 0#w.bits len s t ∧ t.flags = ⟨false, false, true, false⟩ :=
  ⟨_, h, registerResult_xw s p w _ _ len, rfl⟩

/-- `stq` writes its field zero-extended, and Z of it (R107). -/
theorem setsQuick_of_setQuick {n : Nibble} (h : exec i s = setQuick w p n 2 s) : SetsQuick i w p n s := by
  refine ⟨_, h, ?value, upper_xw s p w _, regsKeptBut_xw s p w _, ?zero, rfl, rfl, rfl, rfl, rfl, fun _ => rfl⟩
  case value => exact (congrArg BitVec.toNat (s.xw_xr_same p w _)).trans (toNat_quickU w n)
  case zero => exact decide_eq_true_iff.trans (quickU_eq_zero_iff w n)

/-- `exc` reads both registers before it writes either (R13, R108). -/
theorem exchanges_of_exchange (h : exec i s = exchange w p q 2 s) : Exchanges i w p q s := by
  refine ⟨_, h, ?first, ?second, fun hw => ?upper, fun j hp hq => ?others, rfl, rfl, ⟨rfl, rfl, rfl, rfl, rfl⟩,
    fun _ => rfl⟩
  case first => exact s.xw_xw_xr_first w _ _ fun hpq => by rw [hpq]
  case second => exact (s.xw p w _).xw_xr_same q w _
  case upper =>
    subst hw
    exact ⟨((s.xw p .byte _).upper_xw_byte q p _).trans (s.upper_xw_byte p p _),
      ((s.xw p .byte _).upper_xw_byte q q _).trans (s.upper_xw_byte p q _)⟩
  case others => exact ((s.xw p w _).xw_x_other w _ hq).trans (s.xw_x_other w _ hp)

end

/-- Settles O30: `cpy` writes the copied value as a bitwise result is written. -/
theorem cpyCopiesAndSetsFlags : Obligations.CpyCopiesAndSetsFlags := by
  unfold Obligations.CpyCopiesAndSetsFlags
  intro s p q
  exact ⟨logicTo_of_writeLogic rfl, logicTo_of_writeLogic rfl⟩

/-- Settles O31: both forms are `clearReg`. -/
theorem clrZeroesAndSetsZ : Obligations.ClrZeroesAndSetsZ := by
  unfold Obligations.ClrZeroesAndSetsZ
  intro s p
  exact ⟨completes_of_clearReg rfl, completes_of_clearReg rfl⟩

/-- Settles O32: both forms are `setQuick`. -/
theorem stqSetsQuickValueAndZ : Obligations.StqSetsQuickValueAndZ := by
  unfold Obligations.StqSetsQuickValueAndZ
  intro s p n
  exact ⟨setsQuick_of_setQuick rfl, setsQuick_of_setQuick rfl⟩

/-- Settles O33: both forms are `exchange`. -/
theorem excExchangesRegisters : Obligations.ExcExchangesRegisters := by
  unfold Obligations.ExcExchangesRegisters
  intro s p q
  exact ⟨exchanges_of_exchange rfl, exchanges_of_exchange rfl⟩

/-! ### Memory -/

/-- A typed write to canonical memory leaves the value at the address, low byte first (R33, R34). -/
theorem bytesAt_of_writeAt {s t : State} {w : Width} {addr : Word} {v : BitVec w.bits} (hwf : s.mem.wf)
    (h : t.mem = s.mem.writeAt w addr v) : BytesAt w addr v t := by
  cases w with
  | byte =>
    have hread : t.mem.readByte addr = v := by rw [h]; exact Memory.readByte_writeByte_same hwf addr v
    exact hread
  | word =>
    have hlow : t.mem.readByte addr = v.extractLsb' 0 8 := by rw [h]; exact Memory.readByte_writeWord_lo hwf addr v
    have hhigh : t.mem.readByte (addr + 1#16) = v.extractLsb' 8 8 := by
      rw [h]; exact Memory.readByte_writeWord_hi hwf addr v
    exact ⟨hlow, hhigh⟩

/-- A typed write leaves every byte that it does not store (R33). -/
theorem memoryKeptBut_of_writeAt {s t : State} {w : Width} {addr : Word} {v : BitVec w.bits}
    (h : t.mem = s.mem.writeAt w addr v) : MemoryKeptBut w addr s t :=
  StoreEffect.memoryKeptBut (.of_writeAt h)

section
variable {i : Instr} {w : Width} {p q : Reg} {addr : Word} {len : Nat} {s : State}

/-- `l` writes what memory holds at the address, with N and Z of it (R109). -/
theorem loadsTo_of_loadReg (h : exec i s = loadReg w p addr len s) : LoadsTo i w p (s.mem.readAt w addr) len s :=
  ⟨_, h, registerResult_xw s p w _ _ len, nz_setNZ _ _, rfl, rfl⟩

/-- `s` stores its register at the address and changes nothing else (R110). -/
theorem storesTo_of_storeReg (h : exec i s = storeReg w addr q len s) : StoresTo i w addr (s.xr q w) len s :=
  ⟨_, h, fun hwf => bytesAt_of_writeAt hwf rfl, memoryKeptBut_of_writeAt (v := s.xr q w) rfl, fun _ => rfl, rfl, rfl,
    ⟨rfl, rfl, rfl, rfl, rfl⟩⟩

/-- `psh` lowers `sp` and stores its operand there (R111, R117). -/
theorem pushes_of_push {v : BitVec w.bits} (h : exec i s = push w v len s) : Pushes i w v len s :=
  ⟨_, h, rfl, fun hwf => bytesAt_of_writeAt hwf rfl, memoryKeptBut_of_writeAt (v := v) rfl, fun _ => rfl, rfl, rfl, rfl,
    ⟨rfl, rfl, rfl⟩⟩

/-- `pop` writes what memory holds at `sp` and raises `sp` (R112, R117). -/
theorem pops_of_popInto (h : exec i s = popInto w p 2 s) : Pops i w p (s.mem.readAt w s.sp) s :=
  ⟨_, h, State.xw_xr_same _ p w _, upper_xw _ p w _, regsKeptBut_xw _ p w _, rfl, nz_setNZ _ _, rfl, rfl, rfl, rfl,
    ⟨rfl, rfl, rfl⟩, fun _ => rfl⟩

end

/-- Settles O34: each form is `loadReg` at its address. -/
theorem loadsReadMemoryIntoRegister : Obligations.LoadsReadMemoryIntoRegister := by
  unfold Obligations.LoadsReadMemoryIntoRegister
  intro s p q imm
  exact ⟨loadsTo_of_loadReg (w := .word) rfl, loadsTo_of_loadReg (w := .word) rfl, loadsTo_of_loadReg (w := .byte) rfl,
    loadsTo_of_loadReg (w := .byte) rfl⟩

/-- Settles O35: each form is `storeReg` at its address. -/
theorem storesWriteRegisterToMemory : Obligations.StoresWriteRegisterToMemory := by
  unfold Obligations.StoresWriteRegisterToMemory
  intro s p q imm
  exact ⟨storesTo_of_storeReg rfl, storesTo_of_storeReg rfl, storesTo_of_storeReg rfl, storesTo_of_storeReg rfl⟩

/-! ### The data stack -/

/-- Settles O36: each form is `push` of its operand. -/
theorem pushesStoreBelowStackTop : Obligations.PushesStoreBelowStackTop := by
  unfold Obligations.PushesStoreBelowStackTop
  intro s p imm b
  exact ⟨pushes_of_push rfl, pushes_of_push rfl, pushes_of_push rfl, pushes_of_push rfl⟩

/-- Settles O37: both forms are `popInto`. -/
theorem popsReadStackTop : Obligations.PopsReadStackTop := by
  unfold Obligations.PopsReadStackTop
  intro s p
  exact ⟨pops_of_popInto (w := .word) rfl, pops_of_popInto (w := .byte) rfl⟩

/-- After a push to canonical memory, the stack top holds the pushed value (R117). -/
theorem readAt_pushData {s : State} (hwf : s.mem.wf) (w : Width) (v : BitVec w.bits) :
    (s.pushData w v).mem.readAt w (s.pushData w v).sp = v := by
  rw [State.pushData_mem, State.pushData_sp, Memory.readAt_writeAt hwf]

/-- A pop after a push of the same size reads the pushed value and restores `sp` (R117). -/
theorem pop_after_push {s : State} (hwf : s.mem.wf) (w : Width) (r : Reg) (v : BitVec w.bits) (len : Nat) :
    ∃ t u, push w v len s = .next t ∧ popInto w r 2 t = .next u ∧ u.sp = s.sp ∧ u.xr r w = v := by
  refine ⟨_, _, rfl, rfl, ?sp, ?value⟩
  case sp => exact sub_add_cancel s.sp _
  case value => exact (State.xw_xr_same _ r w _).trans (readAt_pushData hwf w v)

/-- Settles O38: `pop_after_push` at both widths. -/
theorem popUndoesPush : Obligations.PopUndoesPush := by
  unfold Obligations.PopUndoesPush
  intro s p r hwf
  refine ⟨?word, ?byte⟩
  case word =>
    obtain ⟨t, u, hpush, hpop, hsp, hvalue⟩ := pop_after_push hwf .word r (s.xr p .word) 2
    rw [State.xr_word, State.xr_word] at hvalue
    exact ⟨t, u, hpush, hpop, hsp, hvalue⟩
  case byte => exact pop_after_push hwf .byte r (s.xr p .byte) 2

/-! ### Transfers of the stack registers (R113 to R116) -/

/-- Settles O39: `tsr` and `tpr` write a register without a flag; `trs` and `trp` set a stack register and move `pc`. -/
theorem stackRegisterTransfers : Obligations.StackRegisterTransfers := by
  unfold Obligations.StackRegisterTransfers
  intro s p
  refine ⟨?tsr, ?tpr, ?trs, ?trp⟩
  case tsr => exact quietTo_of_writeQuietly (w := .word) rfl
  case tpr => exact quietTo_of_writeQuietly (w := .word) rfl
  case trs => exact ⟨_, rfl, rfl, rfl, rfl, rfl, fun _ => rfl, ⟨rfl, rfl, rfl⟩, fun _ => rfl⟩
  case trp => exact ⟨_, rfl, rfl, rfl, rfl, rfl, fun _ => rfl, ⟨rfl, rfl, rfl⟩, fun _ => rfl⟩

/-! ### Comparison (R125 to R127) -/

/-- Setting the flags and advancing `pc` changes nothing else. -/
theorem flagsOnly_setFlags (s : State) (f : Flags) (len : Nat) : FlagsOnly len s ((s.setFlags f).advance len) where
  regs := fun _ => rfl
  pc := rfl
  special := ⟨rfl, rfl, rfl, rfl, rfl⟩
  memory := fun _ => rfl

section
variable {i : Instr} {w : Width} {p : Reg} {len : Nat} {s : State}

/-- `cmp` writes the flags of the difference alone (R125). -/
theorem compares_of_compareWith {b : BitVec w.bits} (h : exec i s = compareWith w p b len s) :
    Compares i w p b len s :=
  ⟨_, h, flagsOnly_setFlags s _ len, subFlagRule_subFlags (s.xr p w) b⟩

/-- `dcp` writes `p - 1` and compares it with its operand, read after that write (R13, R126). -/
theorem decreases_of_decreaseCompare {operand : State → BitVec w.bits} {b : BitVec w.bits}
    (h : exec i s = decreaseCompare w p operand len s) (hb : operand (s.xw p w (s.xr p w - 1#w.bits)) = b) :
    Decreases i w p b len s := by
  subst hb
  exact ⟨_, h, registerResult_xw s p w _ _ len, subFlagRule_subFlags _ _⟩

/-- `zcp` writes Z alone (R127). -/
theorem testsZero_of_zeroCompare (h : exec i s = zeroCompare w p 2 s) : TestsZero i w p s :=
  ⟨_, h, flagsOnly_setFlags s _ 2, decide_eq_true_iff, rfl, rfl, rfl⟩

end

/-- Settles O40: each form is `compareWith` at its operand. -/
theorem cmpWritesFlagsAlone : Obligations.CmpWritesFlagsAlone := by
  unfold Obligations.CmpWritesFlagsAlone
  intro s p q n imm b
  exact ⟨
    -- cmp.w: RR, immediate, quick
    compares_of_compareWith rfl, compares_of_compareWith rfl, compares_of_compareWith rfl,
    -- cmp.b: RR, immediate, quick
    compares_of_compareWith rfl, compares_of_compareWith rfl, compares_of_compareWith rfl⟩

/-- Settles O41: each form is `decreaseCompare`; an immediate does not see the write, a register is read after it. -/
theorem dcpDecrementsThenCompares : Obligations.DcpDecrementsThenCompares := by
  unfold Obligations.DcpDecrementsThenCompares
  intro s p q imm b
  exact ⟨
    decreases_of_decreaseCompare (w := .word) (operand := fun _ => imm) rfl rfl,
    decreases_of_decreaseCompare (w := .byte) (operand := fun _ => b) rfl rfl,
    decreases_of_decreaseCompare (operand := (·.xr q .word)) rfl (s.xw_xr p q .word _),
    decreases_of_decreaseCompare (operand := (·.xr q .byte)) rfl (s.xw_xr p q .byte _)⟩

/-- Settles O42: both forms are `zeroCompare`. -/
theorem zcpWritesZAlone : Obligations.ZcpWritesZAlone := by
  unfold Obligations.ZcpWritesZAlone
  intro s p
  exact ⟨testsZero_of_zeroCompare rfl, testsZero_of_zeroCompare rfl⟩

end Sys2Proof.Safety
end

section
/-! SUPPORT. Jumps, calls and returns (45_jump_call.md) and the system instructions (46_system.md, 60_exceptions.md):
the statements `JmpSetsProgramCounter` to `RtiReturnsAfterInterruptCall`. -/

namespace Sys2Proof.Safety

open Sys2Proof.Machine Sys2Proof.Claims

/-- Settles O46: both forms set `pc` alone. -/
theorem jmpSetsProgramCounter : Obligations.JmpSetsProgramCounter := by
  unfold Obligations.JmpSetsProgramCounter
  intro s p imm
  exact ⟨completes_of_exec_setPc rfl, completes_of_exec_setPc rfl⟩

/-! ### Calls and returns -/

/-- The call of an interrupt, with the mode and the flags that the instruction leaves, is a call (R161, R188). A `jsr`
is one that leaves both as they are. -/
theorem calls_callInterrupt (s : State) (mode : Bool) (f : Flags) (target : Word) (len : Nat) :
    Calls target len s (((s.setProt mode).setFlags f).callInterrupt target len) where
  pc := rfl
  pcs := rfl
  pushed := fun hwf => bytesAt_of_writeAt (w := .word) hwf rfl
  memory := memoryKeptBut_of_writeAt (w := .word) (v := s.pcNext len) rfl
  regs := fun _ => rfl
  sp := rfl
  iopins := rfl
  draws := rfl

/-- A pop of the PC Stack is a return (R162, R170). -/
theorem returns_popPc (s : State) : Returns s s.popPc where
  pc := rfl
  pcs := rfl
  sp := rfl
  regs := fun _ => rfl
  flags := rfl
  system := ⟨rfl, rfl, rfl⟩
  memory := fun _ => rfl

/-- A `jsr` completes as a call that leaves the flags and the mode (R161). -/
theorem completes_of_callTo {i : Instr} {target : Word} {len : Nat} {s : State} (h : exec i s = callTo target len s) :
    Completes i s fun t => Calls target len s t ∧ t.flags = s.flags ∧ t.prot = s.prot :=
  ⟨_, h, calls_callInterrupt s s.prot s.flags target len, rfl, rfl⟩

/-- Settles O47: both forms are `callTo` at their operand. -/
theorem jsrPushesReturnAddress : Obligations.JsrPushesReturnAddress := by
  unfold Obligations.JsrPushesReturnAddress
  intro s p imm
  exact ⟨completes_of_callTo rfl, completes_of_callTo rfl⟩

/-- Settles O48: both instructions are `popPc`. -/
theorem retAndRtiPopProgramCounter : Obligations.RetAndRtiPopProgramCounter := by
  unfold Obligations.RetAndRtiPopProgramCounter
  intro s
  exact ⟨⟨_, rfl, returns_popPc s⟩, ⟨_, rfl, returns_popPc s⟩⟩

/-- A word whose two bytes lie in memory is read from there (R34). -/
theorem readWord_of_bytesAt {t : State} {addr v : Word} (h : BytesAt .word addr v t) : t.mem.readWord addr = v := by
  obtain ⟨hlow, hhigh⟩ := h
  rw [Memory.readWord, hlow, hhigh]
  exact (BitVec.extractLsb'_append_extractLsb'_eq_extractLsb' rfl).trans BitVec.extractLsb'_eq_self

/-- The return after a call, from canonical memory: `pc` is past the call, `pcs` is as before it, and what neither
writes is kept (R161, R162, R188, R189). -/
theorem returns_after_calls {s t : State} {target : Word} {len : Nat} (hwf : s.mem.wf) (h : Calls target len s t) :
    t.popPc.pc = s.pc + BitVec.ofNat 16 len ∧ t.popPc.pcs = s.pcs ∧ t.popPc.sp = s.sp ∧ RegsKept s t.popPc := by
  obtain ⟨hpc, hpcs, hsp, hregs, -, -, -⟩ := returns_popPc t
  refine ⟨?pc, ?pcs, hsp.trans h.sp, fun i => (hregs i).trans (h.regs i)⟩
  case pc =>
    rw [State.popPc_eq, State.setPc_pc, h.pcs]
    exact readWord_of_bytesAt (h.pushed hwf)
  case pcs => rw [hpcs, h.pcs, sub_add_cancel]

/-- Settles O49: the `ret` is a return after the call that `jsr` made; neither writes flags or mode. -/
theorem returnUndoesCall : Obligations.ReturnUndoesCall := by
  unfold Obligations.ReturnUndoesCall
  intro s p imm hwf
  obtain ⟨⟨t, hexec, hcall, hflags, hprot⟩, ⟨t', hexec', hcall', hflags', hprot'⟩⟩ := jsrPushesReturnAddress s p imm
  obtain ⟨hpc, hpcs, hsp, hregs⟩ := returns_after_calls hwf hcall
  obtain ⟨hpc', hpcs', hsp', hregs'⟩ := returns_after_calls hwf hcall'
  exact ⟨⟨t, t.popPc, hexec, rfl, hpc, hpcs, hsp, hflags, hprot, hregs⟩,
    ⟨t', t'.popPc, hexec', rfl, hpc', hpcs', hsp', hflags', hprot', hregs'⟩⟩

/-! ### The mode and the pins -/

/-- Settles O50: outside Protected Mode `ent` is a call with the mode set and the flags cleared; inside it is denied. -/
theorem entEntersProtectedModeAndCalls : Obligations.EntEntersProtectedModeAndCalls := by
  unfold Obligations.EntEntersProtectedModeAndCalls
  refine fun s => ⟨fun hprot => ?calls, exec_ent_of_prot⟩
  have hopen : ¬ s.prot = true := by simp [hprot]
  exact ⟨_, if_neg hopen, calls_callInterrupt s true clearedFlags Config.enterProtVector 2, rfl, rfl⟩

/-- Settles O51: `lve` is a call with the mode and the flags cleared. -/
theorem lveLeavesProtectedModeAndCalls : Obligations.LveLeavesProtectedModeAndCalls := by
  unfold Obligations.LveLeavesProtectedModeAndCalls
  exact fun s => ⟨_, rfl, calls_callInterrupt s false clearedFlags Config.leaveProtVector 2, rfl, rfl⟩

/-- A field value of 0 to 3 is the value of its two low bits (R169). -/
theorem toNat_pins {n : Nibble} (h : n.toNat ≤ 3) : (n.extractLsb' 0 2).toNat = n.toNat := by
  rw [BitVec.extractLsb'_toNat, Nat.shiftRight_zero]
  exact Nat.mod_eq_of_lt (by omega)

/-- Settles O52: the pins take the field's two low bits where neither the mode nor the field is denied. -/
theorem ioDrivesPinsOrFaults : Obligations.IoDrivesPinsOrFaults := by
  unfold Obligations.IoDrivesPinsOrFaults
  refine fun s n => ⟨fun hprot hfield => ?drives, exec_io_of_prot n, exec_io_of_field⟩
  have hopen : ¬ s.prot = true := by simp [hprot]
  have hexec : exec (.io n) s = .next ((s.setIopins (n.extractLsb' 0 2)).advance 2) :=
    (if_neg hopen).trans (if_neg (by omega))
  exact ⟨_, hexec, toNat_pins hfield, rfl, rfl, rfl, rfl, rfl, rfl, fun _ => rfl, fun _ => rfl⟩

/-- Settles O53: the `rti` is a return after the interrupt call; the mode and the flags stay as that call left them. -/
theorem rtiReturnsAfterInterruptCall : Obligations.RtiReturnsAfterInterruptCall := by
  unfold Obligations.RtiReturnsAfterInterruptCall
  intro s hwf
  refine ⟨fun hopen => ?ent, ?lve⟩
  case ent =>
    obtain ⟨hent, -⟩ := entEntersProtectedModeAndCalls s
    obtain ⟨t, hexec, hcall, hprot, hflags⟩ := hent hopen
    obtain ⟨hpc, hpcs, hsp, hregs⟩ := returns_after_calls hwf hcall
    exact ⟨t, t.popPc, hexec, rfl, hpc, hpcs, hprot, hflags, hsp, hregs⟩
  case lve =>
    obtain ⟨t, hexec, hcall, hprot, hflags⟩ := lveLeavesProtectedModeAndCalls s
    obtain ⟨hpc, hpcs, hsp, hregs⟩ := returns_after_calls hwf hcall
    exact ⟨t, t.popPc, hexec, rfl, hpc, hpcs, hprot, hflags, hsp, hregs⟩

end Sys2Proof.Safety
end
